-- ==== Sys2Proof/Word.lean ====
section
/-! DEFINITION. The widths the spec treats as bits: bytes of BUF, 32-bit registers, 64-bit register pairs (00 R7). -/

namespace Sys2Proof

/-- One byte of BUF, or one character code (00 R7, R13). -/
abbrev Byte := BitVec 8

/-- One register (00 R7: "32 bits"). -/
abbrev Word := BitVec 32

/-- A pair of registers read as one 64-bit pattern, such as COUNTER (10 R33). -/
abbrev DWord := BitVec 64

end Sys2Proof
end

