-- ==== Sys2Proof/Config.lean ====
section
/-! DEFINITION. What an implementation fixes (00 R7) and the free values of the model. -/

namespace Sys2Proof

/-- The open parameters of 00 R7 that the model depends on.
BUF_BYTES is "a power of two, 256 ≤ BUF_BYTES ≤ 65536": the nine legal values are 256 * 2^bufSel, so no other value can
be written (93 U1: the model refuses any other value).
BLOCK_BASE is "aligned to 128 KiB": it is 0x2_0000 * baseIndex. -/
structure Params where
  /-- log2 of BUF_BYTES, less 8. -/
  bufSel    : Fin 9
  /-- BLOCK_BASE in units of the 128 KiB window. -/
  baseIndex : Nat
deriving DecidableEq, Repr

/-- The parameter BUF_BYTES. -/
def Params.bufBytes (p : Params) : Nat := 256 * 2 ^ p.bufSel.val

/-- The parameter BLOCK_BASE. -/
def Params.blockBase (p : Params) : Nat := 0x20000 * p.baseIndex

/-- DESIGN CHOICE (log entry 2; unsafe): the parameters of State.reset: BUF_BYTES = 4096, the spec's suggested default,
and BLOCK_BASE = 0. -/
def Params.default : Params where
  bufSel := 4
  baseIndex := 0

/-- FREE VALUE (log entry 5; safe): what the Host reads from a BUF byte that nothing has written since the reset of this
number, at this index. 20 R70: "The model gives it a draw, any value"; 93 U5: "one fixed but unknown byte per location
until written". It has no body, so nothing can be proved of its value. -/
opaque Config.unwrittenByte : Nat → Nat → Byte

end Sys2Proof
end

