-- ==== Sys2Proof/Syntax.lean ====
section
/-! DEFINITION. The commands (one constructor per row of spec/opcode_table.json) and the Host's bus accesses. -/

namespace Sys2Proof

/-- A command, as 30 R90 and R91 give them: the opcode is the constructor.
Every command word carries NULL_IN (bit 9) and PAD (bit 8), also where the command ignores them (30 R90): CMD reads them
back as written (10 R26). -/
inductive Instr where
  /-- OPCODE 0x1: Base32Decode (40 R125). -/
  | b32dec   (nullIn pad : Bool)
  /-- OPCODE 0x2: Base32Encode (40 R130). -/
  | b32enc   (nullIn pad : Bool)
  /-- OPCODE 0x3: GenerateToken (41 R160). -/
  | hotpgen  (nullIn pad : Bool)
  /-- OPCODE 0x4: GetCounter (41 R165). -/
  | totpcnt  (nullIn pad : Bool)
  /-- OPCODE 0x0: no command (60 R190). -/
  | illegal0 (nullIn pad : Bool)
  /-- OPCODE 0x5: reserved for GenerateSecureKey (60 R190, 92 D27). -/
  | illegal5 (nullIn pad : Bool)
  /-- OPCODE 0x6 to 0xF: no command (60 R190). -/
  | illegal6 (nullIn pad : Bool)
  | illegal7 (nullIn pad : Bool)
  | illegal8 (nullIn pad : Bool)
  | illegal9 (nullIn pad : Bool)
  | illegalA (nullIn pad : Bool)
  | illegalB (nullIn pad : Bool)
  | illegalC (nullIn pad : Bool)
  | illegalD (nullIn pad : Bool)
  | illegalE (nullIn pad : Bool)
  | illegalF (nullIn pad : Bool)
deriving DecidableEq, Repr

/-- The width of a Host access: 8, 16 or 32 bits (20 R63), or wider, which the platform does not admit (93 U9). -/
inductive Width where
  | w8
  | w16
  | w32
  | wider
deriving DecidableEq, Repr

/-- One Host bus access at a system address (20 R60: the window stands at BLOCK_BASE). -/
inductive Access where
  | read  (addr : Nat) (width : Width)
  /-- The bytes written stand in the low lanes of the data (20 R62). -/
  | write (addr : Nat) (width : Width) (data : Word)
deriving DecidableEq, Repr

/-- The system address of an access. -/
def Access.addr : Access → Nat
  | .read addr _    => addr
  | .write addr _ _ => addr

/-- The width of an access. -/
def Access.width : Access → Width
  | .read _ width    => width
  | .write _ width _ => width

/-- What happens next outside or beside the Core (60 R201: "every Host access and every completion is its own atomic step,
in some interleaving"). -/
inductive Input where
  /-- The Host makes one bus access. -/
  | host (a : Access)
  /-- `rst_n` goes low and high again (70 R220). -/
  | reset
  /-- The Core takes its turn: it completes the command in flight, if there is one. -/
  | core
deriving DecidableEq, Repr

/-- What the bus answers to one Host access (20 R63, 60 R199): OK or the error response, and data where the access is a
read, on an error too. -/
inductive BusResponse where
  | readOk (data : Word)
  | writeOk
  /-- The bus error of a read, with the data the bus carries beside it. -/
  | readError (data : Word)
  /-- The bus error of a write. -/
  | writeError
deriving DecidableEq, Repr

/-- The registers of the map of 10 R22. -/
inductive Reg where
  | id | ctrl | status | cmd
  | srcAddr | srcLen | dstAddr | offset | length | digits
  | counterLo | counterHi | epoch | step | nowLo | nowHi
  | resLen | resToken | resCntLo | resCntHi | bufSize
deriving DecidableEq, Repr

end Sys2Proof
end

