-- ==== Sys2Proof/Machine/State.lean ====
section
/-! DEFINITION. The state of the block: 10 R48's record (csr, buf, S), the parameters, and the model's own input and
output lists. Plain data throughout. -/

namespace Sys2Proof.Machine

/-- STATUS.ERRCODE, the six codes of 60 R190. Codes 6 to 15 are "never produced", so they have no name here. -/
inductive ErrCode where
  | noError
  | nullInput
  | format
  | invalidArgument
  | bufferRange
  | illegalCmd
deriving DecidableEq, Repr

/-- STATUS.ERRPARAM, the thirteen codes of 60 R191. Codes 13 to 15 are "never produced". -/
inductive ErrParam where
  | noParam
  | input
  | offset
  | length
  | range
  | lengthLimit
  | counter
  | key
  | digits
  | step
  | src
  | dst
  | opcode
deriving DecidableEq, Repr

/-- CTRL's two fields (10 R24). -/
structure Ctrl where
  aliasEn : Bool
  irqEn   : Bool
deriving DecidableEq, Repr

/-- STATUS's five fields (10 R25). -/
structure Status where
  busy     : Bool
  done     : Bool
  err      : Bool
  errcode  : ErrCode
  errparam : ErrParam
deriving DecidableEq, Repr

/-- The registers that hold a value (10 R24 to R38). ID is a constant and BUF_SIZE a parameter, so neither is here. -/
structure Csr where
  ctrl      : Ctrl
  status    : Status
  /-- CMD: the last accepted word, masked (10 R26). -/
  cmd       : Word
  srcAddr   : Word
  srcLen    : Word
  dstAddr   : Word
  offset    : Word
  length    : Word
  digits    : Word
  counterLo : Word
  counterHi : Word
  epoch     : Word
  step      : Word
  nowLo     : Word
  nowHi     : Word
  resLen    : Word
  resToken  : Word
  resCntLo  : Word
  resCntHi  : Word
deriving DecidableEq, Repr

/-- The command snapshot S latched at acceptance (10 R41). "meaningful only while BUSY" (10 R48). -/
structure Snapshot where
  op      : BitVec 4
  pad     : Bool
  nullIn  : Bool
  aliasEn : Bool
  srcAddr : Word
  srcLen  : Word
  dstAddr : Word
  offset  : Word
  length  : Word
  digits  : Word
  counter : DWord
  epoch   : Word
  step    : Word
  now     : DWord
deriving DecidableEq, Repr

/-- BUF: the bytes written since reset, as (index, byte) pairs, indices strictly rising. An index that is not listed is
unwritten (10 R48: "none means not written since reset"), so it reads as no value and no entry is ever redundant. -/
abbrev Memory := List Host.Cell

/-- The canonical form: indices strictly rising. -/
abbrev Memory.wf (m : Memory) : Prop := List.Pairwise (fun x y : Host.Cell => x.1 < y.1) m

/-- The whole machine. -/
structure State where
  /-- The registers (10 R22 to R39). -/
  csr       : Csr
  /-- The buffer memory (10 R45). -/
  buf       : Memory
  /-- The snapshot of the command in flight (10 R41). -/
  snap      : Snapshot
  /-- The parameters of 00 R7; BUF_SIZE reads BUF_BYTES from here (10 R39). No step changes them. -/
  params    : Params
  /-- The model's own (log entry 1): what the Host, the reset pin and the scheduler do next, in order. -/
  inputs    : List Input
  /-- The model's own (log entry 4): what the bus answered so far, newest first. -/
  responses : List BusResponse
  /-- The model's own (log entry 5): how many resets there were, for the free value of an unwritten byte. -/
  resets    : Nat
deriving DecidableEq, Repr

/-- What stops the model without a result (60 R209, "Model fault"). -/
inductive Fault where
  /-- Raised by B32DEC, B32ENC and HOTPGEN when a byte they read from BUF was not written since reset (20 R70, 93 U6).
  Safe: the hardware completes, with a value the spec does not fix. -/
  | unwrittenBufByte
  /-- Raised by a Host access outside the window at BLOCK_BASE (93 U9). Safe: the block sees no such access. -/
  | notRouted
  /-- Raised by a Host access wider than 32 bits (93 U9). Safe: the platform does not admit it. -/
  | accessTooWide
deriving DecidableEq, Repr

/-- What the model refuses. -/
inductive Refusal where
  /-- Raised by an arm of exec whose command has no meaning yet; no arm does. Safe. -/
  | notModelled (mnemonic : String)
deriving DecidableEq, Repr

/-- What a successful command writes, all of it together at completion (10 R43): one BUF window and result registers.
A register that is `none` here keeps its value (10 R36 to R38). -/
structure CmdWrites where
  dst      : Nat
  out      : List Byte
  resLen   : Option Word
  resToken : Option Word
  resCnt   : Option DWord
deriving DecidableEq, Repr

/-- The outcome of a command function (10 R43), and the model fault of 20 R70. -/
inductive CmdOutcome where
  | ok       (w : CmdWrites)
  | err      (code : ErrCode) (param : ErrParam)
  | noResult (f : Fault)
deriving DecidableEq, Repr

/-- The registers after reset (10 R22, 70 R222). -/
def Csr.reset : Csr where
  ctrl      := { aliasEn := true, irqEn := false }
  status    := { busy := false, done := false, err := false, errcode := .noError, errparam := .noParam }
  cmd       := 0#32
  srcAddr   := 0#32
  srcLen    := 0#32
  dstAddr   := 0#32
  offset    := 0#32
  length    := 0#32
  digits    := 6#32
  counterLo := 0#32
  counterHi := 0#32
  epoch     := 0#32
  step      := 30#32
  nowLo     := 0#32
  nowHi     := 0#32
  resLen    := 0#32
  resToken  := 0#32
  resCntLo  := 0#32
  resCntHi  := 0#32

/-- DESIGN CHOICE (log entry 3; unsafe): after reset "the snapshot S holds no meaning" (70 R222); the model holds zeros. -/
def Snapshot.reset : Snapshot where
  op      := 0#4
  pad     := false
  nullIn  := false
  aliasEn := false
  srcAddr := 0#32
  srcLen  := 0#32
  dstAddr := 0#32
  offset  := 0#32
  length  := 0#32
  digits  := 0#32
  counter := 0#64
  epoch   := 0#32
  step    := 0#32
  now     := 0#64

/-- The machine right after reset: 70 R221 (every BUF byte unwritten), R222 and R224, with no input pending. -/
def State.reset : State where
  csr       := Csr.reset
  buf       := []
  snap      := Snapshot.reset
  params    := Params.default
  inputs    := []
  responses := []
  resets    := 0

end Sys2Proof.Machine
end

