-- ==== Sys2Proof/Machine/Flags.lean ====
section
/-! DEFINITION. CTRL, STATUS and irq: how the fields stand in the words, and every way a command or the Host changes
them (10 R24, R25, R41, R43; 60 R190, R191, R195, R198, R200). -/

namespace Sys2Proof.Machine

/-- The ERRCODE values of 60 R190. -/
def ErrCode.bits : ErrCode → BitVec 4
  | .noError         => 0#4
  | .nullInput       => 1#4
  | .format          => 2#4
  | .invalidArgument => 3#4
  | .bufferRange     => 4#4
  | .illegalCmd      => 5#4

/-- The ERRPARAM values of 60 R191. -/
def ErrParam.bits : ErrParam → BitVec 4
  | .noParam     => 0#4
  | .input       => 1#4
  | .offset      => 2#4
  | .length      => 3#4
  | .range       => 4#4
  | .lengthLimit => 5#4
  | .counter     => 6#4
  | .key         => 7#4
  | .digits      => 8#4
  | .step        => 9#4
  | .src         => 10#4
  | .dst         => 11#4
  | .opcode      => 12#4

/-- The "used with" column of 60 R191: which parameter codes go with which error code. -/
def ErrParam.usedWith : ErrParam → ErrCode → Bool
  | .noParam,     c => decide (c = .noError)
  | .input,       c => decide (c = .nullInput) || decide (c = .format)
  | .offset,      c => decide (c = .invalidArgument)
  | .length,      c => decide (c = .invalidArgument)
  | .range,       c => decide (c = .invalidArgument)
  | .lengthLimit, c => decide (c = .invalidArgument)
  | .counter,     c => decide (c = .invalidArgument)
  | .key,         c => decide (c = .invalidArgument)
  | .digits,      c => decide (c = .invalidArgument)
  | .step,        c => decide (c = .invalidArgument)
  | .src,         c => decide (c = .bufferRange)
  | .dst,         c => decide (c = .bufferRange)
  | .opcode,      c => decide (c = .illegalCmd)

/-- STATUS as the Host reads it (10 R25): [11:8] ERRPARAM, [7:4] ERRCODE, [3] zero, [2] ERR, [1] DONE, [0] BUSY. -/
def Status.word (t : Status) : Word :=
  0#20 ++ t.errparam.bits ++ t.errcode.bits ++ 0#1
    ++ BitVec.ofBool t.err ++ BitVec.ofBool t.done ++ BitVec.ofBool t.busy

/-- STATUS after acceptance (10 R41): BUSY alone. -/
def Status.accepted : Status where
  busy     := true
  done     := false
  err      := false
  errcode  := .noError
  errparam := .noParam

/-- STATUS after a successful completion (10 R43): DONE alone. -/
def Status.succeeded : Status where
  busy     := false
  done     := true
  err      := false
  errcode  := .noError
  errparam := .noParam

/-- STATUS after a completion with error (10 R43, 60 R195). -/
def Status.failed (code : ErrCode) (param : ErrParam) : Status where
  busy     := false
  done     := true
  err      := true
  errcode  := code
  errparam := param

/-- A Host write of w to STATUS: it "changes only DONE, and only when the written bit 1 is 1" (10 R25). -/
def Status.hostWrite (w : Word) (t : Status) : Status :=
  { t with done := t.done && !w.getLsbD 1 }

/-- CTRL as the Host reads it (10 R24): [1] IRQ_EN, [0] ALIAS_EN, the rest zero. -/
def Ctrl.word (c : Ctrl) : Word := 0#30 ++ BitVec.ofBool c.irqEn ++ BitVec.ofBool c.aliasEn

/-- A Host write of w to CTRL: reserved bits are ignored (10 R24). -/
def Ctrl.ofWord (w : Word) : Ctrl where
  aliasEn := w.getLsbD 0
  irqEn   := w.getLsbD 1

/-- The interrupt output: "irq = STATUS.DONE and CTRL.IRQ_EN" (60 R200). Derived, not state (10 R48). -/
def State.irq (s : State) : Bool := s.csr.status.done && s.csr.ctrl.irqEn

end Sys2Proof.Machine
end

