-- ==== Sys2Proof/Decode.lean ====
section
/-! DEFINITION. Command words to commands and back: the format CMD32 and the opcode map (30 R90 to R95). -/

namespace Sys2Proof

/-- The bits of a command word that mean something: OPCODE [3:0], PAD [8], NULL_IN [9] (30 R90). -/
def cmdMask : Word := 0x0000030F#32

/-- OPCODE, bits [3:0] (30 R90). -/
def opcodeOf (w : Word) : BitVec 4 := w.extractLsb' 0 4

/-- PAD, bit [8] (30 R92). -/
def padOf (w : Word) : Bool := w.getLsbD 8

/-- NULL_IN, bit [9] (30 R93). -/
def nullInOf (w : Word) : Bool := w.getLsbD 9

/-- The opcode map of 30 R91. It is total: all sixteen opcodes have a row, and the last arm is 0xF alone. -/
def commandOf (op : BitVec 4) (nullIn pad : Bool) : Instr :=
  match op.toNat with
  | 0x0 => .illegal0 nullIn pad
  | 0x1 => .b32dec nullIn pad
  | 0x2 => .b32enc nullIn pad
  | 0x3 => .hotpgen nullIn pad
  | 0x4 => .totpcnt nullIn pad
  | 0x5 => .illegal5 nullIn pad
  | 0x6 => .illegal6 nullIn pad
  | 0x7 => .illegal7 nullIn pad
  | 0x8 => .illegal8 nullIn pad
  | 0x9 => .illegal9 nullIn pad
  | 0xA => .illegalA nullIn pad
  | 0xB => .illegalB nullIn pad
  | 0xC => .illegalC nullIn pad
  | 0xD => .illegalD nullIn pad
  | 0xE => .illegalE nullIn pad
  | _   => .illegalF nullIn pad

/-- The command a 32-bit word selects. Reserved bits are ignored (30 R94). -/
def decodeWord (w : Word) : Instr := commandOf (opcodeOf w) (nullInOf w) (padOf w)

/-- Why a byte string is no command word. -/
inductive DecodeRefusal where
  /-- Fewer than four bytes: "Every command word is exactly 32 bits" (30 R95). -/
  | truncated
deriving DecidableEq, Repr

/-- Four bytes, lowest lane first, as one word (20 R62). -/
def wordOfBytes (b0 b1 b2 b3 : Byte) : Word := b3 ++ b2 ++ b1 ++ b0

/-- The decoder on any bytes: the command and the bytes after it. -/
def decode : List Byte → Except DecodeRefusal (Instr × List Byte)
  | b0 :: b1 :: b2 :: b3 :: rest => .ok (decodeWord (wordOfBytes b0 b1 b2 b3), rest)
  | _ => .error .truncated

/-- The four bytes of a word, lowest lane first (20 R62). -/
def bytesOfWord (w : Word) : List Byte :=
  [w.extractLsb' 0 8, w.extractLsb' 8 8, w.extractLsb' 16 8, w.extractLsb' 24 8]

/-- PAD and NULL_IN at their places (30 R90). -/
def flagBits (nullIn pad : Bool) : Word :=
  (if nullIn then 0x200#32 else 0#32) ||| (if pad then 0x100#32 else 0#32)

/-- The command word of a command, reserved bits zero (30 R90, R91, R104). -/
def encode : Instr → Word
  | .illegal0 nullIn pad => 0x0#32 ||| flagBits nullIn pad
  | .b32dec nullIn pad   => 0x1#32 ||| flagBits nullIn pad
  | .b32enc nullIn pad   => 0x2#32 ||| flagBits nullIn pad
  | .hotpgen nullIn pad  => 0x3#32 ||| flagBits nullIn pad
  | .totpcnt nullIn pad  => 0x4#32 ||| flagBits nullIn pad
  | .illegal5 nullIn pad => 0x5#32 ||| flagBits nullIn pad
  | .illegal6 nullIn pad => 0x6#32 ||| flagBits nullIn pad
  | .illegal7 nullIn pad => 0x7#32 ||| flagBits nullIn pad
  | .illegal8 nullIn pad => 0x8#32 ||| flagBits nullIn pad
  | .illegal9 nullIn pad => 0x9#32 ||| flagBits nullIn pad
  | .illegalA nullIn pad => 0xA#32 ||| flagBits nullIn pad
  | .illegalB nullIn pad => 0xB#32 ||| flagBits nullIn pad
  | .illegalC nullIn pad => 0xC#32 ||| flagBits nullIn pad
  | .illegalD nullIn pad => 0xD#32 ||| flagBits nullIn pad
  | .illegalE nullIn pad => 0xE#32 ||| flagBits nullIn pad
  | .illegalF nullIn pad => 0xF#32 ||| flagBits nullIn pad

/-- The word the host's table numbering stands for: bit 0 the least significant, the bits from nbits on zero. -/
def tableWord (nbits w : Nat) : Word := BitVec.ofNat 32 (w % 2 ^ nbits)

/-- The command this decoder reads from a table row's word. A row longer than one command word has none (30 R95). -/
def decodeTableWord (nbits w : Nat) : Option Instr :=
  if nbits ≤ 32 then
    match decode (bytesOfWord (tableWord nbits w)) with
    | .ok (i, _) => some i
    | .error _   => none
  else none

end Sys2Proof
end

