-- ==== Sys2Proof/Machine/Operands.lean ====
section
/-! DEFINITION. Operands: how a register is read as a number (00 R10), the snapshot a command takes at acceptance
(10 R41, 30 R96), and the command word the snapshot holds. -/

namespace Sys2Proof.Machine

/-- `u32`: the unsigned reading of a register (00 R10). -/
def u32 (w : Word) : Nat := w.toNat

/-- `s32`: the two's-complement reading of a register (00 R10, 30 R96). -/
def s32 (w : Word) : Int := w.toInt

/-- `s64`: the two's-complement reading of a 64-bit pattern (00 R10). -/
def s64 (d : DWord) : Int := d.toInt

/-- HI ++ LO, HI holding bits [63:32] (10 R33, R35). -/
def pair64 (hi lo : Word) : DWord := hi ++ lo

/-- The snapshot of the registers and of the written command word w (10 R41). -/
def latch (w : Word) (c : Csr) : Snapshot where
  op      := opcodeOf w
  pad     := padOf w
  nullIn  := nullInOf w
  aliasEn := c.ctrl.aliasEn
  srcAddr := c.srcAddr
  srcLen  := c.srcLen
  dstAddr := c.dstAddr
  offset  := c.offset
  length  := c.length
  digits  := c.digits
  counter := pair64 c.counterHi c.counterLo
  epoch   := c.epoch
  step    := c.step
  now     := pair64 c.nowHi c.nowLo

/-- The command the snapshot selects: "the command function chosen by S.op" (10 R43), with its two flags. -/
def Snapshot.command (S : Snapshot) : Instr := commandOf S.op S.nullIn S.pad

end Sys2Proof.Machine
end

