-- ==== Sys2Proof/Machine/Ops.lean ====
section
/-! DEFINITION. The operations every command and every access shares: BUF, the window check, acceptance, completion,
reset. -/

namespace Sys2Proof.Machine

/-- `cdiv(a, b)` for natural numbers (00 R10). -/
def cdiv (a b : Nat) : Nat := (a + b - 1) / b

/-- The byte at an index of BUF; none where nothing was written since reset (10 R48). -/
def readByte? : Memory → Nat → Option Byte
  | [], _ => none
  | (k, b) :: m, a => if k = a then some b else readByte? m a

/-- `BUF[a] <- v`, keeping the indices rising. -/
def writeByte : Memory → Nat → Byte → Memory
  | [], a, v => [(a, v)]
  | (k, b) :: m, a, v =>
    if a < k then (a, v) :: (k, b) :: m
    else if a = k then (a, v) :: m
    else (k, b) :: writeByte m a v

/-- `MemRead(a, n)` (20 R67); none where it meets a byte nothing has written since reset (20 R70). -/
def memRead (m : Memory) : Nat → Nat → Option (List Byte)
  | _, 0 => some []
  | a, n + 1 =>
    match readByte? m a with
    | none   => none
    | some b =>
      match memRead m (a + 1) n with
      | none    => none
      | some bs => some (b :: bs)

/-- `MemWrite(a, len(s), s)` (20 R67): element i goes to `BUF[a + i]` (20 R68). -/
def memWrite : Memory → Nat → List Byte → Memory
  | m, _, [] => m
  | m, a, b :: bs => memWrite (writeByte m a b) (a + 1) bs

/-- The window check of 20 R66, in exact arithmetic: "A zero-length window is always in range, whatever a is". -/
abbrev InBuf (bufBytes a n : Nat) : Prop := n = 0 ∨ a + n ≤ bufBytes

/-- The result registers after a successful command: a register the command does not write keeps its value (10 R36 to
R38). RES_CNT_HI takes bits [63:32] of the counter (10 R38). -/
def CmdWrites.applyRegs (w : CmdWrites) (c : Csr) : Csr :=
  { c with
    resLen   := w.resLen.getD c.resLen
    resToken := w.resToken.getD c.resToken
    resCntLo := (w.resCnt.map (fun q => q.extractLsb' 0 32)).getD c.resCntLo
    resCntHi := (w.resCnt.map (fun q => q.extractLsb' 32 32)).getD c.resCntHi }

/-- Successful completion (10 R43): the BUF writes, the result registers and STATUS, all in one step. -/
def completeOk (w : CmdWrites) (s : State) : State :=
  { s with
    buf := memWrite s.buf w.dst w.out
    csr := { w.applyRegs s.csr with status := Status.succeeded } }

/-- Completion with error, the block's trap entry (10 R43, 60 R195, R197): STATUS alone changes. -/
def completeErr (code : ErrCode) (param : ErrParam) (s : State) : State :=
  { s with csr := { s.csr with status := Status.failed code param } }

/-- The completion step (10 R43). The third outcome is the model fault of 20 R70. -/
def complete (o : CmdOutcome) (s : State) : Host.Outcome State Fault Refusal :=
  match o with
  | .ok w           => .next (completeOk w s)
  | .err code param => .next (completeErr code param s)
  | .noResult f     => .fault f

/-- Acceptance of the command word w (10 R41). It checks nothing. -/
def accept (w : Word) (s : State) : State :=
  { s with
    snap := latch w s.csr
    csr := { s.csr with cmd := w &&& cmdMask, status := Status.accepted } }

/-- A Host write of w to STATUS, the block's trap return (60 R198): it clears DONE where bit 1 is 1. -/
def clearDone (w : Word) (s : State) : State :=
  { s with csr := { s.csr with status := s.csr.status.hostWrite w } }

/-- Reset (70 R220 to R222): every register at its reset value, every BUF byte unwritten, a command in flight abandoned.
The parameters and the model's own lists stay; the count of resets rises (log entry 5). -/
def resetBlock (s : State) : State :=
  { s with csr := Csr.reset, snap := Snapshot.reset, buf := [], resets := s.resets + 1 }

end Sys2Proof.Machine
end

