-- ==== Sys2Proof/Machine/Base32.lean ====
section
/-! DEFINITION. Base32Codec: B32DEC and B32ENC (40_base32.md) and the alphabet (30 R97 to R99). -/

namespace Sys2Proof.Machine

/-! ### Decode sub-rules -/

/-- Membership in WS (00 R7). -/
def isWS (c : Byte) : Bool :=
  c == 0x09#8 || c == 0x0A#8 || c == 0x0B#8 || c == 0x0C#8 || c == 0x0D#8 || c == 0x20#8

/-- The padding character '=' (30 R99). -/
def padChar : Byte := 0x3D#8

/-- Drop from the end of a list while p holds. -/
def stripEnd (p : Byte → Bool) (t : List Byte) : List Byte := (t.reverse.dropWhile p).reverse

/-- `Trim` (40 R123): leading WS, then trailing WS, then trailing '=', once each. -/
def trim (t : List Byte) : List Byte :=
  stripEnd (fun c => c == padChar) (stripEnd isWS (t.dropWhile isWS))

/-- `Upper` (40 R122). -/
def upper (c : Byte) : Byte := if 0x61 ≤ c.toNat ∧ c.toNat ≤ 0x7A then c - 0x20#8 else c

/-- `Alpha(c, alias_en)` (30 R98). -/
def alpha (c : Byte) (aliasEn : Bool) : Option (BitVec 5) :=
  if 0x41 ≤ c.toNat ∧ c.toNat ≤ 0x5A then some (BitVec.ofNat 5 (c.toNat - 0x41))
  else if 0x32 ≤ c.toNat ∧ c.toNat ≤ 0x37 then some (BitVec.ofNat 5 (c.toNat - 0x18))
  else if c = 0x30#8 ∧ aliasEn = true then some 14#5
  else if c = 0x31#8 ∧ aliasEn = true then some 8#5
  else if c = 0x38#8 ∧ aliasEn = true then some 1#5
  else none

/-- The values of a trimmed text, in order; none where a character is outside the alphabet (40 R126). -/
def textValues (aliasEn : Bool) : List Byte → Option (List (BitVec 5))
  | [] => some []
  | c :: t =>
    match alpha (upper c) aliasEn with
    | none   => none
    | some v =>
      match textValues aliasEn t with
      | none      => none
      | some vals => some (v :: vals)

/-- The loop of `Repack5to8` (40 R127) from accumulator acc with nb bits buffered. -/
def repack5to8From : Nat → Nat → List (BitVec 5) → List Byte
  | _, _, [] => []
  | acc, nb, v :: vals =>
    let acc := (acc <<< 5) ||| v.toNat
    let nb := nb + 5
    if 8 ≤ nb then
      BitVec.ofNat 8 ((acc >>> (nb - 8)) &&& 0xFF)
        :: repack5to8From (acc &&& ((1 <<< (nb - 8)) - 1)) (nb - 8) vals
    else repack5to8From acc nb vals

/-- `Repack5to8` (40 R127). -/
def repack5to8 (vals : List (BitVec 5)) : List Byte := repack5to8From 0 0 vals

/-- `m = fdiv(5*n, 8)` (40 R124). -/
def decodedLength (n : Nat) : Nat := 5 * n / 8

/-! ### Encode sub-rules -/

/-- `ALPHABET[v]` (30 R97). -/
def alphabet (v : BitVec 5) : Byte :=
  if v.toNat ≤ 25 then BitVec.ofNat 8 (0x41 + v.toNat) else BitVec.ofNat 8 (0x18 + v.toNat)

/-- The loop of `Repack8to5` (40 R132) from accumulator acc with nb bits buffered, for at most the given number of
rounds. Each round gives the index of one character. -/
def repack8to5From : Nat → Nat → Nat → List Byte → List (BitVec 5)
  | 0, _, _, _ => []
  | fuel + 1, acc, nb, d =>
    if nb < 5 then
      match d with
      | b :: d =>
        let acc := (acc <<< 8) ||| b.toNat
        let nb := nb + 8
        BitVec.ofNat 5 ((acc >>> (nb - 5)) &&& 0x1F)
          :: repack8to5From fuel (acc &&& ((1 <<< (nb - 5)) - 1)) (nb - 5) d
      | [] =>
        if nb = 0 then []
        else
          let acc := acc <<< (5 - nb)
          BitVec.ofNat 5 (acc &&& 0x1F) :: repack8to5From fuel 0 0 []
    else
      BitVec.ofNat 5 ((acc >>> (nb - 5)) &&& 0x1F)
        :: repack8to5From fuel (acc &&& ((1 <<< (nb - 5)) - 1)) (nb - 5) d

/-- `Repack8to5` (40 R132), as alphabet indices. A byte gives at most two characters, so two rounds a byte are enough
for the loop to run to its end. -/
def repack8to5 (d : List Byte) : List (BitVec 5) := repack8to5From (2 * d.length) 0 0 d

/-- `c = cdiv(8*L, 5)` (40 R134). -/
def encodedLength (n : Nat) : Nat := cdiv (8 * n) 5

/-- `p` (40 R133). -/
def padCount (pad : Bool) (c : Nat) : Nat := if pad then (8 - c % 8) % 8 else 0

/-- The text B32ENC writes for the bytes d (40 R130). -/
def encodeText (pad : Bool) (d : List Byte) : List Byte :=
  (repack8to5 d).map alphabet ++ List.replicate (padCount pad (encodedLength d.length)) padChar

/-! ### The two commands -/

/-- The command function of B32DEC (40 R125), its checks in the order of 60 R193. -/
def b32decCommand (nullIn : Bool) (S : Snapshot) (bufBytes : Nat) (buf : Memory) : CmdOutcome :=
  if nullIn then .err .nullInput .input
  else if ¬ InBuf bufBytes (u32 S.srcAddr) (u32 S.srcLen) then .err .bufferRange .src
  else
    match memRead buf (u32 S.srcAddr) (u32 S.srcLen) with
    | none => .noResult .unwrittenBufByte
    | some text =>
      match textValues S.aliasEn (trim text) with
      | none => .err .format .input
      | some vals =>
        if ¬ InBuf bufBytes (u32 S.dstAddr) (decodedLength vals.length) then .err .bufferRange .dst
        else .ok {
          dst      := u32 S.dstAddr
          out      := repack5to8 vals
          resLen   := some (BitVec.ofNat 32 (decodedLength vals.length))
          resToken := none
          resCnt   := none }

/-- The command function of B32ENC (40 R130, R131), its checks in the order of 60 R193. -/
def b32encCommand (nullIn pad : Bool) (S : Snapshot) (bufBytes : Nat) (buf : Memory) : CmdOutcome :=
  if nullIn then .err .nullInput .input
  else if s32 S.offset < 0 then .err .invalidArgument .offset
  else if s32 S.length < 0 then .err .invalidArgument .length
  else if s32 S.offset + s32 S.length > (u32 S.srcLen : Int) then .err .invalidArgument .range
  else if s32 S.length ≥ 2 ^ 28 then .err .invalidArgument .lengthLimit
  else if ¬ InBuf bufBytes (u32 S.srcAddr) (u32 S.srcLen) then .err .bufferRange .src
  else
    let len := (s32 S.length).toNat
    let c := encodedLength len
    if ¬ InBuf bufBytes (u32 S.dstAddr) (c + padCount pad c) then .err .bufferRange .dst
    else
      match memRead buf (u32 S.srcAddr + (s32 S.offset).toNat) len with
      | none => .noResult .unwrittenBufByte
      | some d => .ok {
          dst      := u32 S.dstAddr
          out      := encodeText pad d
          resLen   := some (BitVec.ofNat 32 (c + padCount pad c))
          resToken := none
          resCnt   := none }

/-- B32DEC (40 R125). PAD is ignored. -/
def execB32dec (nullIn _pad : Bool) (s : State) : Host.Outcome State Fault Refusal :=
  complete (b32decCommand nullIn s.snap s.params.bufBytes s.buf) s

/-- B32ENC (40 R130). -/
def execB32enc (nullIn pad : Bool) (s : State) : Host.Outcome State Fault Refusal :=
  complete (b32encCommand nullIn pad s.snap s.params.bufBytes s.buf) s

end Sys2Proof.Machine
end

