-- ==== Sys2Proof/Machine/Illegal.lean ====
section
/-! DEFINITION. The opcodes with no command: each completes with ILLEGAL_CMD(OPCODE) (30 R94, 60 R190, R193). -/

namespace Sys2Proof.Machine

/-- The outcome of a word whose OPCODE has no command: "nothing else is checked" (60 R193). -/
def illegalCommand : CmdOutcome := .err .illegalCmd .opcode

/-- OPCODE 0x0 completes with ILLEGAL_CMD(OPCODE) (60 R190). -/
def execIllegal0 (_nullIn _pad : Bool) (s : State) : Host.Outcome State Fault Refusal :=
  complete illegalCommand s

/-- OPCODE 0x5, reserved for GenerateSecureKey (92 D27), completes with ILLEGAL_CMD(OPCODE) (60 R190). -/
def execIllegal5 (_nullIn _pad : Bool) (s : State) : Host.Outcome State Fault Refusal :=
  complete illegalCommand s

/-- OPCODE 0x6 completes with ILLEGAL_CMD(OPCODE) (60 R190). -/
def execIllegal6 (_nullIn _pad : Bool) (s : State) : Host.Outcome State Fault Refusal :=
  complete illegalCommand s

/-- OPCODE 0x7 completes with ILLEGAL_CMD(OPCODE) (60 R190). -/
def execIllegal7 (_nullIn _pad : Bool) (s : State) : Host.Outcome State Fault Refusal :=
  complete illegalCommand s

/-- OPCODE 0x8 completes with ILLEGAL_CMD(OPCODE) (60 R190). -/
def execIllegal8 (_nullIn _pad : Bool) (s : State) : Host.Outcome State Fault Refusal :=
  complete illegalCommand s

/-- OPCODE 0x9 completes with ILLEGAL_CMD(OPCODE) (60 R190). -/
def execIllegal9 (_nullIn _pad : Bool) (s : State) : Host.Outcome State Fault Refusal :=
  complete illegalCommand s

/-- OPCODE 0xA completes with ILLEGAL_CMD(OPCODE) (60 R190). -/
def execIllegalA (_nullIn _pad : Bool) (s : State) : Host.Outcome State Fault Refusal :=
  complete illegalCommand s

/-- OPCODE 0xB completes with ILLEGAL_CMD(OPCODE) (60 R190). -/
def execIllegalB (_nullIn _pad : Bool) (s : State) : Host.Outcome State Fault Refusal :=
  complete illegalCommand s

/-- OPCODE 0xC completes with ILLEGAL_CMD(OPCODE) (60 R190). -/
def execIllegalC (_nullIn _pad : Bool) (s : State) : Host.Outcome State Fault Refusal :=
  complete illegalCommand s

/-- OPCODE 0xD completes with ILLEGAL_CMD(OPCODE) (60 R190). -/
def execIllegalD (_nullIn _pad : Bool) (s : State) : Host.Outcome State Fault Refusal :=
  complete illegalCommand s

/-- OPCODE 0xE completes with ILLEGAL_CMD(OPCODE) (60 R190). -/
def execIllegalE (_nullIn _pad : Bool) (s : State) : Host.Outcome State Fault Refusal :=
  complete illegalCommand s

/-- OPCODE 0xF completes with ILLEGAL_CMD(OPCODE) (60 R190). -/
def execIllegalF (_nullIn _pad : Bool) (s : State) : Host.Outcome State Fault Refusal :=
  complete illegalCommand s

end Sys2Proof.Machine
end

