-- ==== Sys2Proof/Machine/Sha1.lean ====
section
/-! DEFINITION. Big-endian numbers (00 R11) and the HMAC-SHA1 unit (41 R170 to R176). -/

namespace Sys2Proof.Machine

/-- `BE_n(v)` (00 R11): n bytes, most significant first. -/
def beBytes : Nat → Nat → List Byte
  | 0, _ => []
  | n + 1, v => BitVec.ofNat 8 (v / 256 ^ n) :: beBytes n v

/-- `BEval(s)` (00 R11). -/
def beVal (s : List Byte) : Nat := s.foldl (fun acc b => acc * 256 + b.toNat) 0

/-- A list cut into the given number of pieces of k elements. -/
def pieces {α : Type} (k : Nat) : Nat → List α → List (List α)
  | 0, _ => []
  | n + 1, l => l.take k :: pieces k n (l.drop k)

/-- `ROTL_n(x)` on 32-bit words (41 R172). -/
def rotl (n : Nat) (x : Word) : Word := (x <<< n) ||| (x >>> (32 - n))

/-- The least k with (len + 1 + k) mod 64 = 56 (41 R171). -/
def sha1ZeroCount (len : Nat) : Nat := (119 - len % 64) % 64

/-- The padded message P (41 R171). -/
def sha1Pad (msg : List Byte) : List Byte :=
  msg ++ [0x80#8] ++ List.replicate (sha1ZeroCount msg.length) 0#8 ++ beBytes 8 (8 * msg.length)

/-- The sixteen big-endian words of a block (41 R171). -/
def sha1BlockWords (block : List Byte) : List Word :=
  (pieces 4 16 block).map (fun p => BitVec.ofNat 32 (beVal p))

/-- The schedule (41 R172), newest word first: W[t-3], W[t-8], W[t-14] and W[t-16] stand at places 2, 7, 13 and 15. -/
def sha1Extend : Nat → List Word → List Word
  | 0, ws => ws
  | n + 1, ws =>
    sha1Extend n
      (rotl 1 (ws.getD 2 0#32 ^^^ ws.getD 7 0#32 ^^^ ws.getD 13 0#32 ^^^ ws.getD 15 0#32) :: ws)

/-- W[0..79] of a block (41 R172). -/
def sha1Schedule (block : List Byte) : List Word :=
  (sha1Extend 64 (sha1BlockWords block).reverse).reverse

/-- `f_t(b, c, d)` (41 R173). -/
def sha1F (t : Nat) (b c d : Word) : Word :=
  if t < 20 then (b &&& c) ^^^ (~~~b &&& d)
  else if t < 40 then b ^^^ c ^^^ d
  else if t < 60 then (b &&& c) ^^^ (b &&& d) ^^^ (c &&& d)
  else b ^^^ c ^^^ d

/-- `K_t` (41 R173). -/
def sha1K (t : Nat) : Word :=
  if t < 20 then 0x5A827999#32
  else if t < 40 then 0x6ED9EBA1#32
  else if t < 60 then 0x8F1BBCDC#32
  else 0xCA62C1D6#32

/-- The five working words, or H0 to H4 (41 R174). -/
structure Sha1Words where
  a : Word
  b : Word
  c : Word
  d : Word
  e : Word
deriving DecidableEq, Repr

/-- The initial value H0 to H4 (41 R175). -/
def sha1Init : Sha1Words where
  a := 0x67452301#32
  b := 0xEFCDAB89#32
  c := 0x98BADCFE#32
  d := 0x10325476#32
  e := 0xC3D2E1F0#32

/-- One round (41 R174). -/
def sha1Round (t : Nat) (w : Word) (h : Sha1Words) : Sha1Words where
  a := rotl 5 h.a + sha1F t h.b h.c h.d + h.e + sha1K t + w
  b := h.a
  c := rotl 30 h.b
  d := h.c
  e := h.d

/-- The rounds from number t on. -/
def sha1Rounds : Nat → List Word → Sha1Words → Sha1Words
  | _, [], h => h
  | t, w :: ws, h => sha1Rounds (t + 1) ws (sha1Round t w h)

/-- The compression of one block (41 R174). -/
def sha1Compress (h : Sha1Words) (block : List Byte) : Sha1Words :=
  let r := sha1Rounds 0 (sha1Schedule block) h
  { a := h.a + r.a, b := h.b + r.b, c := h.c + r.c, d := h.d + r.d, e := h.e + r.e }

/-- The digest of H0 to H4 (41 R175). -/
def Sha1Words.digest (h : Sha1Words) : List Byte :=
  beBytes 4 h.a.toNat ++ beBytes 4 h.b.toNat ++ beBytes 4 h.c.toNat ++ beBytes 4 h.d.toNat ++ beBytes 4 h.e.toNat

/-- SHA-1 (41 R171 to R175): the blocks of the padded message, compressed in order. -/
def sha1 (msg : List Byte) : List Byte :=
  let p := sha1Pad msg
  ((pieces 64 (p.length / 64) p).foldl sha1Compress sha1Init).digest

/-- K0 (41 R170): a key longer than 64 bytes is hashed, then zeros fill up to 64 bytes. -/
def hmacKeyBlock (key : List Byte) : List Byte :=
  let k := if key.length > 64 then sha1 key else key
  k ++ List.replicate (64 - k.length) 0#8

/-- `HMAC_SHA1(K, m)` (41 R170). -/
def hmacSha1 (key msg : List Byte) : List Byte :=
  let k0 := hmacKeyBlock key
  sha1 (k0.map (fun b => b ^^^ 0x5C#8) ++ sha1 (k0.map (fun b => b ^^^ 0x36#8) ++ msg))

end Sys2Proof.Machine
end

