-- ==== Sys2Proof/Machine/Otp.lean ====
section
/-! DEFINITION. OTPEngine: HOTPGEN and TOTPCNT (41_otp.md). -/

namespace Sys2Proof.Machine

/-- The 8-byte counter message (30 R101, 41 R161): big-endian, the sign bit masked off. -/
def counterMessage (counter : DWord) : List Byte :=
  beBytes 8 (counter &&& 0x7FFFFFFFFFFFFFFF#64).toNat

/-- `Truncate(h)` (41 R163). -/
def truncate (h : List Byte) : Nat :=
  let off := (h.getD 19 0#8 &&& 0x0F#8).toNat
  ((h.getD off 0#8 &&& 0x7F#8).toNat <<< 24) ||| ((h.getD (off + 1) 0#8).toNat <<< 16)
    ||| ((h.getD (off + 2) 0#8).toNat <<< 8) ||| (h.getD (off + 3) 0#8).toNat

/-- `Dec(t, d)` (30 R100): d decimal digits, most significant first. -/
def decimalText (t d : Nat) : List Byte :=
  (List.range d).map (fun i => BitVec.ofNat 8 (0x30 + t / 10 ^ (d - 1 - i) % 10))

/-- The token's value (41 R160 to R164). -/
def hotpToken (key : List Byte) (counter : DWord) (digits : Nat) : Nat :=
  truncate (hmacSha1 key (counterMessage counter)) % 10 ^ digits

/-- The command function of HOTPGEN (41 R160), its checks in the order of 60 R193. -/
def hotpgenCommand (nullIn : Bool) (S : Snapshot) (bufBytes : Nat) (buf : Memory) : CmdOutcome :=
  if nullIn then .err .nullInput .input
  else if s64 S.counter < 0 then .err .invalidArgument .counter
  else if u32 S.srcLen = 0 then .err .invalidArgument .key
  else if s32 S.digits < 1 ∨ s32 S.digits > 10 then .err .invalidArgument .digits
  else if ¬ InBuf bufBytes (u32 S.srcAddr) (u32 S.srcLen) then .err .bufferRange .src
  else if ¬ InBuf bufBytes (u32 S.dstAddr) (s32 S.digits).toNat then .err .bufferRange .dst
  else
    match memRead buf (u32 S.srcAddr) (u32 S.srcLen) with
    | none => .noResult .unwrittenBufByte
    | some key =>
      let d := (s32 S.digits).toNat
      let tok := hotpToken key S.counter d
      .ok {
        dst      := u32 S.dstAddr
        out      := decimalText tok d
        resLen   := some (BitVec.ofNat 32 d)
        resToken := some (BitVec.ofNat 32 tok)
        resCnt   := none }

/-- The counter of 41 R165 and R166: division truncated toward zero, on exact integers. -/
def stepCounter (now epoch step : Int) : Int := Int.tdiv (now - epoch) step

/-- The command function of TOTPCNT (41 R165). It reads and writes no BUF byte. -/
def totpcntCommand (S : Snapshot) : CmdOutcome :=
  if s32 S.step ≤ 0 then .err .invalidArgument .step
  else .ok {
    dst      := 0
    out      := []
    resLen   := none
    resToken := none
    resCnt   := some (BitVec.ofInt 64 (stepCounter (s64 S.now) (s32 S.epoch) (s32 S.step))) }

/-- HOTPGEN (41 R160). PAD is ignored. -/
def execHotpgen (nullIn _pad : Bool) (s : State) : Host.Outcome State Fault Refusal :=
  complete (hotpgenCommand nullIn s.snap s.params.bufBytes s.buf) s

/-- TOTPCNT (41 R165). PAD and NULL_IN are ignored. -/
def execTotpcnt (_nullIn _pad : Bool) (s : State) : Host.Outcome State Fault Refusal :=
  complete (totpcntCommand s.snap) s

end Sys2Proof.Machine
end

