-- ==== Sys2Proof/Machine/Dispatch.lean ====
section
/-! DEFINITION. One arm per command: the meaning it calls at its completion step (10 R43, 30 R91). -/

namespace Sys2Proof.Machine

def exec (i : Instr) (s : State) : Host.Outcome State Fault Refusal :=
  match i with
  | .b32dec nullIn pad => Sys2Proof.Machine.execB32dec nullIn pad s
  | .b32enc nullIn pad => Sys2Proof.Machine.execB32enc nullIn pad s
  | .hotpgen nullIn pad => Sys2Proof.Machine.execHotpgen nullIn pad s
  | .totpcnt nullIn pad => Sys2Proof.Machine.execTotpcnt nullIn pad s
  | .illegal0 nullIn pad => Sys2Proof.Machine.execIllegal0 nullIn pad s
  | .illegal5 nullIn pad => Sys2Proof.Machine.execIllegal5 nullIn pad s
  | .illegal6 nullIn pad => Sys2Proof.Machine.execIllegal6 nullIn pad s
  | .illegal7 nullIn pad => Sys2Proof.Machine.execIllegal7 nullIn pad s
  | .illegal8 nullIn pad => Sys2Proof.Machine.execIllegal8 nullIn pad s
  | .illegal9 nullIn pad => Sys2Proof.Machine.execIllegal9 nullIn pad s
  | .illegalA nullIn pad => Sys2Proof.Machine.execIllegalA nullIn pad s
  | .illegalB nullIn pad => Sys2Proof.Machine.execIllegalB nullIn pad s
  | .illegalC nullIn pad => Sys2Proof.Machine.execIllegalC nullIn pad s
  | .illegalD nullIn pad => Sys2Proof.Machine.execIllegalD nullIn pad s
  | .illegalE nullIn pad => Sys2Proof.Machine.execIllegalE nullIn pad s
  | .illegalF nullIn pad => Sys2Proof.Machine.execIllegalF nullIn pad s

end Sys2Proof.Machine
end

