-- ==== Sys2Proof/WellFormed.lean ====
section
/-! DEFINITION. Which terms of the syntax stand for something the hardware can be given. -/

namespace Sys2Proof

/-- Every command is well formed: its only fields are the one-bit PAD and NULL_IN, both free for every opcode (30 R90,
R94: "No encoding hangs the block or is left undefined"). One line per constructor, so that a new one must be looked at. -/
def Instr.wellFormed : Instr → Bool
  | .b32dec _ _   => true
  | .b32enc _ _   => true
  | .hotpgen _ _  => true
  | .totpcnt _ _  => true
  | .illegal0 _ _ => true
  | .illegal5 _ _ => true
  | .illegal6 _ _ => true
  | .illegal7 _ _ => true
  | .illegal8 _ _ => true
  | .illegal9 _ _ => true
  | .illegalA _ _ => true
  | .illegalB _ _ => true
  | .illegalC _ _ => true
  | .illegalD _ _ => true
  | .illegalE _ _ => true
  | .illegalF _ _ => true

/-- The access reaches the 128 KiB window at BLOCK_BASE (20 R60). -/
def Access.routed (p : Params) (a : Access) : Bool :=
  decide (p.blockBase ≤ a.addr) && decide (a.addr < p.blockBase + 0x20000)

/-- The access is no wider than the 32-bit bus (70 R223, 93 U9). -/
def Access.fitsBus (a : Access) : Bool := decide (a.width ≠ .wider)

/-- The accesses the platform admits (60 R209, 93 U9). -/
def Access.wellFormed (p : Params) (a : Access) : Bool := a.routed p && a.fitsBus

/-- A pending input is well formed when its access is; resets and Core turns always are. -/
def Input.wellFormed (p : Params) : Input → Bool
  | .host a => a.wellFormed p
  | .reset  => true
  | .core   => true

end Sys2Proof
end

