-- ==== Sys2Proof/Machine/HostBus.lean ====
section
/-! DEFINITION. Host accesses: the register map (10 R22 to R40, R44) and the window (20 R60 to R65). -/

namespace Sys2Proof.Machine

/-! ### Registers -/

/-- The offset of a register (10 R22). -/
def regOffset : Reg → Nat
  | .id        => 0x000
  | .ctrl      => 0x004
  | .status    => 0x008
  | .cmd       => 0x00C
  | .srcAddr   => 0x010
  | .srcLen    => 0x014
  | .dstAddr   => 0x018
  | .offset    => 0x01C
  | .length    => 0x020
  | .digits    => 0x024
  | .counterLo => 0x028
  | .counterHi => 0x02C
  | .epoch     => 0x030
  | .step      => 0x034
  | .nowLo     => 0x038
  | .nowHi     => 0x03C
  | .resLen    => 0x040
  | .resToken  => 0x044
  | .resCntLo  => 0x048
  | .resCntHi  => 0x04C
  | .bufSize   => 0x050

/-- The registers of the map, in the order of their offsets. -/
def allRegs : List Reg :=
  [.id, .ctrl, .status, .cmd, .srcAddr, .srcLen, .dstAddr, .offset, .length, .digits, .counterLo, .counterHi,
   .epoch, .step, .nowLo, .nowHi, .resLen, .resToken, .resCntLo, .resCntHi, .bufSize]

/-- The register at an offset; none at a reserved or unaligned one (10 R40). -/
def regAt (off : Nat) : Option Reg := allRegs.find? (fun r => regOffset r == off)

/-- What a register reads as (10 R23 to R39). No read has a side effect (20 R65). -/
def csrRead (p : Params) (c : Csr) : Reg → Word
  | .id        => 0xB32C0001#32
  | .ctrl      => c.ctrl.word
  | .status    => c.status.word
  | .cmd       => c.cmd
  | .srcAddr   => c.srcAddr
  | .srcLen    => c.srcLen
  | .dstAddr   => c.dstAddr
  | .offset    => c.offset
  | .length    => c.length
  | .digits    => c.digits
  | .counterLo => c.counterLo
  | .counterHi => c.counterHi
  | .epoch     => c.epoch
  | .step      => c.step
  | .nowLo     => c.nowLo
  | .nowHi     => c.nowHi
  | .resLen    => c.resLen
  | .resToken  => c.resToken
  | .resCntLo  => c.resCntLo
  | .resCntHi  => c.resCntHi
  | .bufSize   => BitVec.ofNat 32 p.bufBytes

/-- A register write that reaches an operand register; the other registers are not written this way. -/
def operandWrite (w : Word) (c : Csr) : Reg → Csr
  | .srcAddr   => { c with srcAddr := w }
  | .srcLen    => { c with srcLen := w }
  | .dstAddr   => { c with dstAddr := w }
  | .offset    => { c with offset := w }
  | .length    => { c with length := w }
  | .digits    => { c with digits := w }
  | .counterLo => { c with counterLo := w }
  | .counterHi => { c with counterHi := w }
  | .epoch     => { c with epoch := w }
  | .step      => { c with step := w }
  | .nowLo     => { c with nowLo := w }
  | .nowHi     => { c with nowHi := w }
  | .id        => c
  | .ctrl      => c
  | .status    => c
  | .cmd       => c
  | .resLen    => c
  | .resToken  => c
  | .resCntLo  => c
  | .resCntHi  => c
  | .bufSize   => c

/-- A Host write of w to a register. CTRL and STATUS can be written at any time (10 R24, R25); CMD and the operand
registers ignore writes while BUSY (10 R26, R44); read-only registers always do (10 R22). -/
def csrWrite (r : Reg) (w : Word) (s : State) : State :=
  match r with
  | .ctrl   => { s with csr := { s.csr with ctrl := Ctrl.ofWord w } }
  | .status => clearDone w s
  | .cmd    => if s.csr.status.busy then s else accept w s
  | r       => if s.csr.status.busy then s else { s with csr := operandWrite w s.csr r }

/-! ### The window -/

/-- The regions of the window (20 R60), with the BUF index of an offset in BUF. -/
inductive Region where
  | csr
  | reserved
  | buf (index : Nat)
deriving DecidableEq, Repr

/-- The region of a window offset (20 R60). -/
def regionOf (bufBytes off : Nat) : Region :=
  if off < 0x100 then .csr
  else if off < 0x10000 then .reserved
  else if off < 0x10000 + bufBytes then .buf (off - 0x10000)
  else .reserved

/-- How many bytes an access moves. An access wider than the bus never reaches the block (93 U9). -/
def widthBytes : Width → Nat
  | .w8    => 1
  | .w16   => 2
  | .w32   => 4
  | .wider => 8

/-- The accesses of 20 R63's table that get an OK response: 32 bits only in the CSR region (its reserved offsets too: log
entry 8), natural alignment everywhere. -/
def accessOk (g : Region) (width : Width) (off : Nat) : Bool :=
  match g with
  | .csr => decide (width = .w32) && decide (off % 4 = 0)
  | _    => decide (off % widthBytes width = 0)

/-- The byte the Host sees at a BUF index; a free value where nothing was written since reset (20 R70, 93 U5). -/
def bufByte (s : State) (i : Nat) : Byte := (readByte? s.buf i).getD (Config.unwrittenByte s.resets i)

/-- The n bytes from BUF index i on. -/
def bufBytesAt (s : State) : Nat → Nat → List Byte
  | _, 0 => []
  | i, n + 1 => bufByte s i :: bufBytesAt s (i + 1) n

/-- Bytes in the data lanes, the first in [7:0]; lanes above stay zero (20 R62, log entry 7). -/
def wordOfLanes : List Byte → Word
  | [] => 0#32
  | b :: bs => BitVec.setWidth 32 b ||| (wordOfLanes bs <<< 8)

/-- The first n data lanes as bytes, [7:0] first (20 R62). -/
def lanesOfWord (w : Word) : Nat → List Byte
  | 0 => []
  | n + 1 => BitVec.setWidth 8 w :: lanesOfWord (w >>> 8) n

/-- A read of the window at an offset (20 R60 to R65). An access that is not allowed answers "bus error: no state changes,
read data 0" (20 R63). -/
def windowRead (off : Nat) (width : Width) (s : State) : BusResponse :=
  let g := regionOf s.params.bufBytes off
  if accessOk g width off then
    match g with
    | .csr =>
      match regAt off with
      | some r => .readOk (csrRead s.params s.csr r)
      | none   => .readOk 0#32
    | .reserved => .readOk 0#32
    | .buf i =>
      if s.csr.status.busy then .readOk 0#32
      else .readOk (wordOfLanes (bufBytesAt s i (widthBytes width)))
  else .readError 0#32

/-- A write to the window at an offset (20 R60 to R65): the state after it and the response. -/
def windowWrite (off : Nat) (width : Width) (data : Word) (s : State) : State × BusResponse :=
  let g := regionOf s.params.bufBytes off
  if accessOk g width off then
    match g with
    | .csr =>
      match regAt off with
      | some r => (csrWrite r data s, .writeOk)
      | none   => (s, .writeOk)
    | .reserved => (s, .writeOk)
    | .buf i =>
      if s.csr.status.busy then (s, .writeOk)
      else ({ s with buf := memWrite s.buf i (lanesOfWord data (widthBytes width)) }, .writeOk)
  else (s, .writeError)

/-- The bus answers: the response becomes the newest of the list. -/
def respond (r : BusResponse) (s : State) : State := { s with responses := r :: s.responses }

/-- The window offset of a system address (20 R60). -/
def windowOffset (p : Params) (addr : Nat) : Nat := addr - p.blockBase

/-- The state after an access the platform admits. -/
def accessWindow (a : Access) (s : State) : State :=
  match a with
  | .read addr width => respond (windowRead (windowOffset s.params addr) width s) s
  | .write addr width data =>
    respond (windowWrite (windowOffset s.params addr) width data s).2
      (windowWrite (windowOffset s.params addr) width data s).1

/-- One Host access (20 R71). An access the platform does not admit is a model fault (60 R209, 93 U9). -/
def hostAccess (a : Access) (s : State) : Host.Outcome State Fault Refusal :=
  if a.fitsBus = false then .fault .accessTooWide
  else if a.routed s.params = false then .fault .notRouted
  else .next (accessWindow a s)

end Sys2Proof.Machine
end

