-- ==== Sys2Proof/Machine/Step.lean ====
section
/-! DEFINITION. One step of the machine: one Host access, one reset, or one turn of the Core (10 R43, 20 R71, 60 R201). -/

namespace Sys2Proof.Machine

/-- The Core's turn: completion of the command in flight (10 R43); with none in flight the block waits (70 R224). -/
def coreTurn (s : State) : Host.Outcome State Fault Refusal :=
  if s.csr.status.busy then exec s.snap.command s else .next s

/-- The state with its first pending input taken off. -/
def State.popInput (s : State) : State := { s with inputs := s.inputs.tail }

/-- One step. The first pending input says who moves; with none pending the Core does, so a command in flight is always
completed in the end (70 R235: weakly fair). -/
def step (s : State) : Host.Outcome State Fault Refusal :=
  match s.inputs with
  | []           => coreTurn s
  | .core :: _   => coreTurn s.popInput
  | .reset :: _  => .next (resetBlock s.popInput)
  | .host a :: _ => hostAccess a s.popInput

/-- s with a command word accepted as the Host's write to CMD would (10 R41), and the Core's turn next (log entry 1). -/
def State.withFetchWord (s : State) (nbits w : Nat) : State :=
  { accept (tableWord nbits w) s with inputs := .core :: s.inputs }

end Sys2Proof.Machine
end

