-- ==== Sys2Proof/Safety.lean ====
section
/-! DEFINITION. What a safe run is: the invariant of the block's state, and when a step gives a next state. -/

namespace Sys2Proof.Machine

/-- What holds of every state the block can be in, whatever the Host does. -/
structure BlockInv (s : State) : Prop where
  /-- BUF is in canonical form (10 R48). -/
  bufCanonical : Memory.wf s.buf
  /-- "BUF is an array of BUF_BYTES bytes" (10 R45): nothing is held outside it. -/
  bufInRange : ∀ c ∈ s.buf, c.1 < s.params.bufBytes
  /-- CMD's reserved bits read 0 (10 R26, R40). -/
  cmdMasked : s.csr.cmd &&& cmdMask = s.csr.cmd
  /-- While BUSY, every other field of STATUS is as acceptance left it (10 R25, R41). -/
  busyStatus : s.csr.status.busy = true → s.csr.status = Status.accepted
  /-- ERR says whether ERRCODE names an error (10 R25, 60 R190). -/
  errIffCode : s.csr.status.err = true ↔ s.csr.status.errcode ≠ ErrCode.noError
  /-- ERRPARAM is one that 60 R191 uses with ERRCODE. -/
  paramMatches : s.csr.status.errparam.usedWith s.csr.status.errcode = true
  /-- While BUSY, the command in flight is the one CMD reads back (10 R26, R41). -/
  snapIsCmd : s.csr.status.busy = true → decodeWord s.csr.cmd = s.snap.command
  /-- RES_TOKEN "is always < 2^31" (10 R37). -/
  tokenRange : s.csr.resToken.toNat < 2 ^ 31
  /-- RES_LEN bytes fit in BUF (10 R36, 20 R66). -/
  lenRange : s.csr.resLen.toNat ≤ s.params.bufBytes

/-- The BUF window the command of a snapshot reads (40 R125, R130; 41 R160): its first index and its length. -/
def inputWindow (S : Snapshot) : Nat × Nat :=
  match S.command with
  | .b32dec _ _   => (u32 S.srcAddr, u32 S.srcLen)
  | .b32enc _ _   => (u32 S.srcAddr + (s32 S.offset).toNat, (s32 S.length).toNat)
  | .hotpgen _ _  => (u32 S.srcAddr, u32 S.srcLen)
  | .totpcnt _ _  => (0, 0)
  | .illegal0 _ _ => (0, 0)
  | .illegal5 _ _ => (0, 0)
  | .illegal6 _ _ => (0, 0)
  | .illegal7 _ _ => (0, 0)
  | .illegal8 _ _ => (0, 0)
  | .illegal9 _ _ => (0, 0)
  | .illegalA _ _ => (0, 0)
  | .illegalB _ _ => (0, 0)
  | .illegalC _ _ => (0, 0)
  | .illegalD _ _ => (0, 0)
  | .illegalE _ _ => (0, 0)
  | .illegalF _ _ => (0, 0)

/-- Every byte of BUF in the window [a, a + n) was written since reset (70 R225). -/
def Written (s : State) (a n : Nat) : Prop :=
  ∀ i, a ≤ i → i < a + n → i < s.params.bufBytes → (readByte? s.buf i).isSome = true

/-- The command in flight finds every byte of its input window written (70 R225, 93 U6). -/
def InputWritten (s : State) : Prop := Written s (inputWindow s.snap).1 (inputWindow s.snap).2

/-- The next pending input is one the platform admits (60 R209). -/
def NextAdmitted (s : State) : Prop := ∀ i, s.inputs.head? = some i → i.wellFormed s.params = true

/-- The Core moves next: no input is pending, or its turn is. -/
def CoreNext (s : State) : Prop := s.inputs = [] ∨ s.inputs.head? = some .core

end Sys2Proof.Machine
end

