-- ==== Sys2Proof/Certificates/Slice0/Obligations.lean ====
section
/-! DEFINITION. The statements about the block, for the provers. Each docstring names the rule of spec/ it formalises. -/

open Sys2Proof Sys2Proof.Machine

/-! ### Command words -/

/-- 30 R91, R104 and 95 T18: command words written out bit by bit, reserved bits set in the last four. -/
def Obligations.KnownWordsDecode : Prop :=
  decodeWord 0b00000000000000000000000000000001#32 = .b32dec false false ∧
  decodeWord 0b00000000000000000000001000000001#32 = .b32dec true false ∧
  decodeWord 0b00000000000000000000000000000010#32 = .b32enc false false ∧
  decodeWord 0b00000000000000000000000100000010#32 = .b32enc false true ∧
  decodeWord 0b00000000000000000000001000000010#32 = .b32enc true false ∧
  decodeWord 0b00000000000000000000001100000010#32 = .b32enc true true ∧
  decodeWord 0b00000000000000000000000000000011#32 = .hotpgen false false ∧
  decodeWord 0b00000000000000000000001000000011#32 = .hotpgen true false ∧
  decodeWord 0b00000000000000000000000000000100#32 = .totpcnt false false ∧
  decodeWord 0b00000000000000000000000000000101#32 = .illegal5 false false ∧
  decodeWord 0b11111111111111111111111111110011#32 = .hotpgen true true ∧
  decodeWord 0b11111111111111111111110111110100#32 = .totpcnt false true ∧
  decodeWord 0b00000000000000000000000011110001#32 = .b32dec false false ∧
  decodeWord 0b11111111111111111111110011111111#32 = .illegalF false false

/-- 30 R90, R94, R95: the decoder reads back every encoded command whatever follows it, a word decodes to what its
OPCODE, PAD and NULL_IN bits alone say, and fewer than 32 bits are no command. -/
def Obligations.DecodeAndEncodeAgree : Prop :=
  (∀ (i : Instr) (rest : List Byte), decode (bytesOfWord (encode i) ++ rest) = .ok (i, rest)) ∧
  (∀ w : Word, encode (decodeWord w) = w &&& 0x0000030F#32) ∧
  (∀ w w' : Word, decodeWord w = decodeWord w' ↔ w &&& 0x0000030F#32 = w' &&& 0x0000030F#32) ∧
  (∀ bs : List Byte, bs.length < 4 → decode bs = .error .truncated)

/-- 30 R94: reserved bits of a command word are ignored and read back as 0, and a word whose OPCODE has no command is
accepted like any other and completes with ILLEGAL_CMD (code 5) and ERRPARAM 12. -/
def Obligations.ReservedWordsAreAcceptedAndFail : Prop :=
  ∀ (s : State) (w : Word), s.csr.status.busy = false →
    accept w s = accept (w &&& 0x0000030F#32) s ∧
    windowWrite 0x00C .w32 w s = (accept w s, .writeOk) ∧
    windowRead 0x00C .w32 (accept w s) = .readOk (w &&& 0x0000030F#32) ∧
    (w.extractLsb' 0 4 ∉ ([1#4, 2#4, 3#4, 4#4] : List (BitVec 4)) →
      ∃ t, coreTurn (accept w s) = .next t ∧ t.csr.status.word = 0x00000C56#32 ∧
        ErrCode.illegalCmd.bits = 5#4 ∧ ErrParam.opcode.bits = 12#4 ∧
        t.csr.status = Status.failed .illegalCmd .opcode)

/-! ### Reset, registers and the bus -/

/-- 70 R222 (with R220 and R221): from any state, whether a command is in flight or not, reset puts every register at the
reset value of the map and leaves every BUF byte unwritten; State.reset is such a state. -/
def Obligations.ResetPutsEveryRegisterAtItsResetValue : Prop :=
  (∀ (s : State) (rest : List Input), s.inputs = .reset :: rest →
    ∃ t, step s = .next t ∧
      (∀ r : Reg, csrRead t.params t.csr r =
        match r with
        | .id      => 0xB32C0001#32
        | .ctrl    => 0x00000001#32
        | .digits  => 6#32
        | .step    => 30#32
        | .bufSize => BitVec.ofNat 32 s.params.bufBytes
        | _        => 0#32) ∧
      (∀ a, readByte? t.buf a = none) ∧ t.irq = false ∧ t.csr.status.busy = false ∧
      t.params = s.params ∧ t.inputs = rest ∧ t.responses = s.responses) ∧
  (∀ r : Reg, csrRead State.reset.params State.reset.csr r =
    match r with
    | .id      => 0xB32C0001#32
    | .ctrl    => 0x00000001#32
    | .digits  => 6#32
    | .step    => 30#32
    | .bufSize => BitVec.ofNat 32 State.reset.params.bufBytes
    | _        => 0#32) ∧
  (∀ a, readByte? State.reset.buf a = none) ∧ State.reset.irq = false ∧ State.reset.csr.status.busy = false

/-- 20 R71 and 60 R209: an admitted Host access is one step: it takes the input off, gives one response, and does to the
rest of the state what the window access at its offset from BLOCK_BASE does; a read does nothing to it. An access the
platform does not admit is a model fault (log entry 10). -/
def Obligations.HostAccessIsOneStep : Prop :=
  ∀ (s : State) (a : Access) (rest : List Input), s.inputs = .host a :: rest →
    (a.width = .wider → step s = .fault .accessTooWide) ∧
    (a.width ≠ .wider → (a.addr < s.params.blockBase ∨ s.params.blockBase + 0x20000 ≤ a.addr) →
      step s = .fault .notRouted) ∧
    (a.width ≠ .wider → s.params.blockBase ≤ a.addr → a.addr < s.params.blockBase + 0x20000 →
      step s = .next (match a with
        | .read addr width =>
          { s with
            inputs := rest
            responses := windowRead (addr - s.params.blockBase) width { s with inputs := rest } :: s.responses }
        | .write addr width data =>
          let q := windowWrite (addr - s.params.blockBase) width data { s with inputs := rest }
          { q.1 with responses := q.2 :: q.1.responses }))

/-- 10 R22 and R23 to R39: what a 32-bit read of each offset of the map answers, in every state, BUSY or not. -/
def Obligations.RegisterMapReads : Prop :=
  ∀ s : State,
    windowRead 0x000 .w32 s = .readOk 0xB32C0001#32 ∧
    windowRead 0x004 .w32 s = .readOk s.csr.ctrl.word ∧
    windowRead 0x008 .w32 s = .readOk s.csr.status.word ∧
    windowRead 0x00C .w32 s = .readOk s.csr.cmd ∧
    windowRead 0x010 .w32 s = .readOk s.csr.srcAddr ∧
    windowRead 0x014 .w32 s = .readOk s.csr.srcLen ∧
    windowRead 0x018 .w32 s = .readOk s.csr.dstAddr ∧
    windowRead 0x01C .w32 s = .readOk s.csr.offset ∧
    windowRead 0x020 .w32 s = .readOk s.csr.length ∧
    windowRead 0x024 .w32 s = .readOk s.csr.digits ∧
    windowRead 0x028 .w32 s = .readOk s.csr.counterLo ∧
    windowRead 0x02C .w32 s = .readOk s.csr.counterHi ∧
    windowRead 0x030 .w32 s = .readOk s.csr.epoch ∧
    windowRead 0x034 .w32 s = .readOk s.csr.step ∧
    windowRead 0x038 .w32 s = .readOk s.csr.nowLo ∧
    windowRead 0x03C .w32 s = .readOk s.csr.nowHi ∧
    windowRead 0x040 .w32 s = .readOk s.csr.resLen ∧
    windowRead 0x044 .w32 s = .readOk s.csr.resToken ∧
    windowRead 0x048 .w32 s = .readOk s.csr.resCntLo ∧
    windowRead 0x04C .w32 s = .readOk s.csr.resCntHi ∧
    windowRead 0x050 .w32 s = .readOk (BitVec.ofNat 32 s.params.bufBytes)

/-- 10 R22, R24, R44 and R27 to R35: while IDLE, a 32-bit write to an operand register stores the word there and changes
nothing else; a write to CTRL stores its two fields at any time and changes nothing else; a write to a read-only register
changes nothing at any time. Every such write gets an OK response. -/
def Obligations.RegisterWritesReachOneRegister : Prop :=
  ∀ (s : State) (r : Reg) (w : Word),
    (windowWrite (regOffset r) .w32 w s).2 = .writeOk ∧
    (s.csr.status.busy = false → 0x010 ≤ regOffset r → regOffset r ≤ 0x03C →
      ∃ c : Csr, (windowWrite (regOffset r) .w32 w s).1 = { s with csr := c } ∧
        csrRead s.params c r = w ∧ (∀ r', r' ≠ r → csrRead s.params c r' = csrRead s.params s.csr r') ∧
        c.status = s.csr.status ∧ c.ctrl = s.csr.ctrl) ∧
    (r = .ctrl →
      ∃ c : Ctrl, (windowWrite (regOffset r) .w32 w s).1 = { s with csr := { s.csr with ctrl := c } } ∧
        c.aliasEn = w.getLsbD 0 ∧ c.irqEn = w.getLsbD 1 ∧ c.word = w &&& 0x00000003#32) ∧
    (r ∈ ([.id, .resLen, .resToken, .resCntLo, .resCntHi, .bufSize] : List Reg) →
      (windowWrite (regOffset r) .w32 w s).1 = s)

/-- 10 R25: the layout of STATUS, how completion, acceptance and a Host write change it, that DONE rises by completion
alone, and that reading it changes nothing but the list of responses. -/
def Obligations.StatusFieldsFollowTheirRule : Prop :=
  (∀ t : Status,
    t.word.getLsbD 0 = t.busy ∧ t.word.getLsbD 1 = t.done ∧ t.word.getLsbD 2 = t.err ∧ t.word.getLsbD 3 = false ∧
    t.word.extractLsb' 4 4 = t.errcode.bits ∧ t.word.extractLsb' 8 4 = t.errparam.bits ∧
    t.word.extractLsb' 12 20 = 0#20) ∧
  (∀ (s : State) (w : Word),
    (windowWrite 0x008 .w32 w s).1 =
      { s with csr := { s.csr with
          status := { s.csr.status with done := if w.getLsbD 1 then false else s.csr.status.done } } }) ∧
  (∀ (s : State) (w : Word), (accept w s).csr.status.word = 0x00000001#32) ∧
  (∀ (s : State) (w : CmdWrites), (completeOk w s).csr.status.word = 0x00000002#32) ∧
  (∀ (s : State) (c : ErrCode) (p : ErrParam),
    (completeErr c p s).csr.status = { busy := false, done := true, err := true, errcode := c, errparam := p }) ∧
  (∀ s t : State, step s = .next t → s.csr.status.done = false → t.csr.status.done = true →
    CoreNext s ∧ s.csr.status.busy = true) ∧
  (∀ (s : State) (addr : Nat) (rest : List Input) (t : State),
    s.inputs = .host (.read addr .w32) :: rest → addr = s.params.blockBase + 0x008 → step s = .next t →
    t = { s with inputs := rest, responses := .readOk s.csr.status.word :: s.responses })

/-- 10 R41: a Host write of w to CMD while IDLE latches every operand, stores the masked word and sets BUSY, whatever the
word; it writes no BUF byte. A word whose OPCODE has no command is accepted too and fails at completion. -/
def Obligations.AcceptanceLatchesTheSnapshot : Prop :=
  ∀ (s : State) (w : Word), s.csr.status.busy = false →
    ∃ t, windowWrite 0x00C .w32 w s = (t, .writeOk) ∧
      t.snap.op = w.extractLsb' 0 4 ∧ t.snap.pad = w.getLsbD 8 ∧ t.snap.nullIn = w.getLsbD 9 ∧
      t.snap.aliasEn = s.csr.ctrl.aliasEn ∧
      u32 t.snap.srcAddr = s.csr.srcAddr.toNat ∧ u32 t.snap.srcLen = s.csr.srcLen.toNat ∧
      u32 t.snap.dstAddr = s.csr.dstAddr.toNat ∧
      s32 t.snap.offset = s.csr.offset.toInt ∧ s32 t.snap.length = s.csr.length.toInt ∧
      s32 t.snap.digits = s.csr.digits.toInt ∧
      s64 t.snap.counter = s.csr.counterHi.toInt * 2 ^ 32 + (s.csr.counterLo.toNat : Int) ∧
      s32 t.snap.epoch = s.csr.epoch.toInt ∧ s32 t.snap.step = s.csr.step.toInt ∧
      s64 t.snap.now = s.csr.nowHi.toInt * 2 ^ 32 + (s.csr.nowLo.toNat : Int) ∧
      t.csr = { s.csr with
        cmd := w &&& 0x0000030F#32
        status := { busy := true, done := false, err := false, errcode := .noError, errparam := .noParam } } ∧
      t.buf = s.buf ∧ t.params = s.params ∧ t.inputs = s.inputs ∧ t.responses = s.responses ∧
      t.resets = s.resets ∧
      (w.extractLsb' 0 4 ∉ ([1#4, 2#4, 3#4, 4#4] : List (BitVec 4)) →
        coreTurn t = .next (completeErr .illegalCmd .opcode t))

/-- 10 R44 with 20 R64: what the Host can and cannot do while BUSY. (A BUF access that is not naturally aligned is a bus
error, BUSY or not: BusErrorsAreTheBadWidthsAndAlignments.) -/
def Obligations.BusyLocksOperandsCommandAndBuffer : Prop :=
  ∀ s : State, s.csr.status.busy = true →
    (∀ (r : Reg) (w : Word), 0x010 ≤ regOffset r → regOffset r ≤ 0x03C →
      windowWrite (regOffset r) .w32 w s = (s, .writeOk)) ∧
    (∀ w : Word, windowWrite 0x00C .w32 w s = (s, .writeOk)) ∧
    (∀ (i : Nat) (width : Width) (data : Word), i < s.params.bufBytes → width ≠ .wider → i % widthBytes width = 0 →
      windowRead (0x10000 + i) width s = .readOk 0#32 ∧
      windowWrite (0x10000 + i) width data s = (s, .writeOk)) ∧
    (∀ r : Reg, windowRead (regOffset r) .w32 s = .readOk (csrRead s.params s.csr r)) ∧
    (∀ w : Word, windowWrite 0x004 .w32 w s =
      ({ s with csr := { s.csr with ctrl := { aliasEn := w.getLsbD 0, irqEn := w.getLsbD 1 } } }, .writeOk)) ∧
    (∀ w : Word, ∃ d : Bool, windowWrite 0x008 .w32 w s =
      ({ s with csr := { s.csr with status := { s.csr.status with done := d } } }, .writeOk) ∧
      d = (s.csr.status.done && !w.getLsbD 1)) ∧
    (∀ (r : Reg) (w : Word), r ∈ ([.id, .resLen, .resToken, .resCntLo, .resCntHi, .bufSize] : List Reg) →
      windowWrite (regOffset r) .w32 w s = (s, .writeOk))

/-- 10 R40: the reserved offsets and the reserved bits of CTRL, STATUS and CMD read as 0, and writes to them are
ignored. That CMD holds no reserved bit is a premise here; StepKeepsTheInvariant keeps it. -/
def Obligations.ReservedReadsZeroAndIgnoresWrites : Prop :=
  ∀ s : State,
    (∀ (off : Nat) (w : Word), 0x054 ≤ off → off ≤ 0x0FC → off % 4 = 0 →
      windowRead off .w32 s = .readOk 0#32 ∧ windowWrite off .w32 w s = (s, .writeOk)) ∧
    csrRead s.params s.csr .ctrl &&& ~~~0x00000003#32 = 0#32 ∧
    csrRead s.params s.csr .status &&& ~~~0x00000FF7#32 = 0#32 ∧
    (s.csr.cmd &&& cmdMask = s.csr.cmd → csrRead s.params s.csr .cmd &&& ~~~0x0000030F#32 = 0#32) ∧
    (∀ w : Word, csrWrite .ctrl w s = csrWrite .ctrl (w &&& 0x00000003#32) s) ∧
    (∀ w : Word, csrWrite .status w s = csrWrite .status (w &&& 0x00000FF7#32) s) ∧
    (∀ w : Word, csrWrite .cmd w s = csrWrite .cmd (w &&& 0x0000030F#32) s)

/-- 20 R60 and R63, both ways: an access no wider than the bus gets a bus error exactly where its width or alignment is
not allowed, and then changes nothing and a read carries the data 0; every other gets an OK response; and the reserved
regions read 0 and ignore writes. A Host read is answered with what windowRead gives: HostAccessIsOneStep.
That a narrow access to a reserved offset below 0x100 is a bus error is the model's reading (log entry 8). -/
def Obligations.BusErrorsAreTheBadWidthsAndAlignments : Prop :=
  ∀ (s : State) (off : Nat) (width : Width) (data : Word), off < 0x20000 → width ≠ .wider →
    (windowRead off width s = .readError 0#32 ↔
      (off < 0x100 ∧ ¬ (width = .w32 ∧ off % 4 = 0)) ∨ (0x100 ≤ off ∧ off % widthBytes width ≠ 0)) ∧
    (windowRead off width s ≠ .readError 0#32 → ∃ d : Word, windowRead off width s = .readOk d) ∧
    ((windowWrite off width data s).2 = .writeError ↔
      (off < 0x100 ∧ ¬ (width = .w32 ∧ off % 4 = 0)) ∨ (0x100 ≤ off ∧ off % widthBytes width ≠ 0)) ∧
    ((windowWrite off width data s).2 = .writeError → (windowWrite off width data s).1 = s) ∧
    ((windowWrite off width data s).2 ≠ .writeError → (windowWrite off width data s).2 = .writeOk) ∧
    ((0x100 ≤ off ∧ off < 0x10000) ∨ 0x10000 + s.params.bufBytes ≤ off → off % widthBytes width = 0 →
      windowRead off width s = .readOk 0#32 ∧ windowWrite off width data s = (s, .writeOk))

/-- 20 R62: 32-bit and 16-bit accesses to BUF carry its bytes little-endian, a register read carries the register, and a
mixed-width access sees the same bytes. That lanes [31:16] of a 16-bit read are 0 and that an 8-bit write takes its byte
from the low lane is the model's reading (log entry 7). -/
def Obligations.HostAccessesAreLittleEndian : Prop :=
  ∀ (s : State) (a : Nat), s.csr.status.busy = false →
    (a % 4 = 0 → a + 4 ≤ s.params.bufBytes →
      (windowRead (0x10000 + a) .w32 s =
        .readOk (bufByte s (a + 3) ++ bufByte s (a + 2) ++ bufByte s (a + 1) ++ bufByte s a)) ∧
      (∀ (d : Word) (k : Nat), k < 4 →
        readByte? (windowWrite (0x10000 + a) .w32 d s).1.buf (a + k) = some (d.extractLsb' (8 * k) 8)) ∧
      (∀ v : Byte, ∃ w : Word,
        windowRead (0x10000 + a) .w32 (windowWrite (0x10000 + a + 1) .w8 (v.setWidth 32) s).1 = .readOk w ∧
        w.extractLsb' 8 8 = v)) ∧
    (a % 2 = 0 → a + 2 ≤ s.params.bufBytes →
      (windowRead (0x10000 + a) .w16 s = .readOk (0#16 ++ bufByte s (a + 1) ++ bufByte s a)) ∧
      (∀ (d : Word) (k : Nat), k < 2 →
        readByte? (windowWrite (0x10000 + a) .w16 d s).1.buf (a + k) = some (d.extractLsb' (8 * k) 8))) ∧
    (∀ r : Reg, windowRead (regOffset r) .w32 s = .readOk (csrRead s.params s.csr r))

/-- 20 R65 and R68: an aligned Host write to BUF while IDLE stores exactly its width in bytes, every other byte reads as
before, and no register, snapshot or parameter changes. The lane of an 8-bit access is the model's reading
(log entry 7). -/
def Obligations.HostBufferWriteStoresItsWidthOnly : Prop :=
  ∀ (s : State) (i : Nat) (width : Width) (data : Word), s.csr.status.busy = false → width ≠ .wider →
    i < s.params.bufBytes → i % widthBytes width = 0 →
    ∃ t, windowWrite (0x10000 + i) width data s = (t, .writeOk) ∧
      (∀ k, k < widthBytes width → readByte? t.buf (i + k) = some (data.extractLsb' (8 * k) 8)) ∧
      (∀ a, a < i ∨ i + widthBytes width ≤ a → readByte? t.buf a = readByte? s.buf a) ∧
      t.csr = s.csr ∧ t.snap = s.snap ∧ t.params = s.params ∧ t.inputs = s.inputs ∧ t.responses = s.responses ∧
      t.resets = s.resets ∧
      (width = .w8 → windowRead (0x10000 + i) .w8 t = .readOk (0#24 ++ data.extractLsb' 0 8))

/-- 20 R70 with 93 U5: an 8-bit Host read of a BUF byte that was not written since reset answers one byte per location,
whatever it is, and the same one after any aligned Host write to other bytes of BUF, at every width (log entries 5 and
7). -/
def Obligations.UnwrittenBytesReadOneUnknownValue : Prop :=
  ∀ (s : State) (i : Nat), s.csr.status.busy = false → i < s.params.bufBytes → readByte? s.buf i = none →
    windowRead (0x10000 + i) .w8 s = .readOk (0#24 ++ Config.unwrittenByte s.resets i) ∧
    (∀ (j : Nat) (width : Width) (data : Word), width ≠ .wider → j < s.params.bufBytes → j % widthBytes width = 0 →
      i < j ∨ j + widthBytes width ≤ i →
      windowRead (0x10000 + i) .w8 (windowWrite (0x10000 + j) width data s).1 = windowRead (0x10000 + i) .w8 s)

/-- 60 R200 with R198: irq is DONE and IRQ_EN; completion of either kind raises it where IRQ_EN is set; a write of bit 1
to STATUS, or acceptance, lowers it; IRQ_EN masks and unmasks it at once and leaves DONE as it is. -/
def Obligations.IrqFollowsDoneAndItsEnable : Prop :=
  ∀ s : State,
    (s.irq = true ↔ s.csr.status.done = true ∧ s.csr.ctrl.irqEn = true) ∧
    (∀ (i : Instr) (t : State), exec i s = .next t → t.irq = s.csr.ctrl.irqEn) ∧
    (∀ w : Word, w.getLsbD 1 = true → (windowWrite 0x008 .w32 w s).1.irq = false) ∧
    (∀ w : Word, s.csr.status.busy = false → (windowWrite 0x00C .w32 w s).1.irq = false) ∧
    (∀ w : Word,
      (windowWrite 0x004 .w32 w s).1.irq = (s.csr.status.done && w.getLsbD 1) ∧
      (windowWrite 0x004 .w32 w s).1.csr.status.done = s.csr.status.done)

/-! ### The step -/

/-- 10 R43 and 60 R201: where the Core moves next, a step with a command in flight is exec of the command its snapshot
holds, after the Core's turn is taken off the inputs; acceptance of w makes that command the one w decodes to; and the
state withFetchWord makes runs it in its very next step. -/
def Obligations.StepRunsTheDecodedCommand : Prop :=
  (∀ (s : State) (i : Instr), CoreNext s → s.csr.status.busy = true → s.snap.command = i →
    step s = exec i { s with inputs := s.inputs.tail }) ∧
  (∀ (s : State) (w : Word) (b0 b1 b2 b3 : Byte) (i : Instr),
    bytesOfWord w = [b0, b1, b2, b3] → decode [b0, b1, b2, b3] = .ok (i, []) → i.wellFormed = true →
    (accept w s).snap.command = i) ∧
  (∀ (s : State) (w : Nat) (i : Instr), decodeTableWord 32 w = some i →
    step (s.withFetchWord 32 w) = exec i (accept (BitVec.ofNat 32 (w % 2 ^ 32)) s))

/-- 70 R224 and 10 R42: with no command in flight, the Core's turn changes nothing but the list of inputs. -/
def Obligations.IdleBlockWaits : Prop :=
  ∀ s : State, CoreNext s → s.csr.status.busy = false → step s = .next { s with inputs := s.inputs.tail }

/-- 10 R42: BUSY becomes 1 only by acceptance, and 0 only by completion or reset. -/
def Obligations.BusyChangesOnlyByAcceptanceCompletionOrReset : Prop :=
  ∀ s t : State, step s = .next t →
    (s.csr.status.busy = false → t.csr.status.busy = true →
      ∃ (addr : Nat) (w : Word) (rest : List Input),
        s.inputs = .host (.write addr .w32 w) :: rest ∧ addr = s.params.blockBase + 0x00C ∧
        t.snap = latch w s.csr ∧ t.csr.cmd = w &&& 0x0000030F#32) ∧
    (s.csr.status.busy = true → t.csr.status.busy = false →
      (CoreNext s ∧ t.csr.status.done = true) ∨ s.inputs.head? = some .reset)

/-- 10 section 4, with R36 to R38 and 60 R195: a step that changes a result register is a reset or the successful completion of a
command that writes it. -/
def Obligations.ResultsChangeOnlyAtTheirCompletion : Prop :=
  ∀ s t : State, step s = .next t → s.inputs.head? ≠ some .reset →
    (t.csr.resLen ≠ s.csr.resLen →
      CoreNext s ∧ s.csr.status.busy = true ∧ t.csr.status.err = false ∧
        s.snap.op ∈ ([1#4, 2#4, 3#4] : List (BitVec 4))) ∧
    (t.csr.resToken ≠ s.csr.resToken →
      CoreNext s ∧ s.csr.status.busy = true ∧ t.csr.status.err = false ∧ s.snap.op = 3#4) ∧
    (t.csr.resCntLo ≠ s.csr.resCntLo ∨ t.csr.resCntHi ≠ s.csr.resCntHi →
      CoreNext s ∧ s.csr.status.busy = true ∧ t.csr.status.err = false ∧ s.snap.op = 4#4)

/-- 20 R71 and 00 R7: a step takes exactly the first input off, never changes the parameters, and adds one response
exactly when the Host moved. -/
def Obligations.StepConsumesOneInput : Prop :=
  ∀ s t : State, step s = .next t →
    t.params = s.params ∧ t.inputs = s.inputs.tail ∧
    ((∃ a, s.inputs.head? = some (.host a)) → ∃ r, t.responses = r :: s.responses) ∧
    ((¬ ∃ a, s.inputs.head? = some (.host a)) → t.responses = s.responses)

/-- 60 R209 and 70 R235: the block is never stuck: a step answers next whenever the next access is admitted and a command
about to complete finds its input bytes written. -/
def Obligations.TheBlockIsNeverStuck : Prop :=
  ∀ s : State, NextAdmitted s → (CoreNext s → s.csr.status.busy = true → InputWritten s) →
    ∃ t, step s = .next t

/-- 70 R235, the model's form of it (log entry 1): behind any number of admitted Host accesses, a command in flight whose
input bytes are written completes as soon as they are over. -/
def Obligations.EveryCommandCompletes : Prop :=
  ∀ s : State, s.csr.status.busy = true → InputWritten s →
    (∀ i ∈ s.inputs, ∃ a : Access, i = .host a ∧ a.wellFormed s.params = true) →
    ∃ u : State, Host.Core.run Sys2Proof.core (s.inputs.length + 1) s = .next u ∧
      u.csr.status.busy = false ∧ u.csr.status.done = true ∧ u.inputs = []

/-- 10 R44, 20 R74 and 95 T20 (with log entry 1: the Core moves when the inputs are over): whatever admitted accesses the Host makes while a command is in flight, in whatever number
and order, the command ends as if it had completed before them: BUF, every result, every operand, CMD, the snapshot and
STATUS are the same, and only CTRL may differ. -/
def Obligations.HostCannotDisturbTheCommandInFlight : Prop :=
  ∀ s t : State, s.csr.status.busy = true →
    (∀ i ∈ s.inputs, ∃ a : Access, i = .host a ∧ a.wellFormed s.params = true) →
    step { s with inputs := [] } = .next t →
    ∃ u : State, Host.Core.run Sys2Proof.core (s.inputs.length + 1) s = .next u ∧
      u.buf = t.buf ∧ u.snap = t.snap ∧ u.params = t.params ∧ u.inputs = [] ∧ u.resets = t.resets ∧
      u.csr = { t.csr with ctrl := u.csr.ctrl }

/-- 70 R232: CTRL.ALIAS_EN is read once, at acceptance; a change while a command is in flight does not affect it. -/
def Obligations.AliasEnableIsSampledAtAcceptance : Prop :=
  (∀ (w : Word) (s : State), (accept w s).snap.aliasEn = s.csr.ctrl.aliasEn) ∧
  (∀ (i : Instr) (s t : State) (c : Ctrl), exec i s = .next t →
    exec i { s with csr := { s.csr with ctrl := c } } = .next { t with csr := { t.csr with ctrl := c } })

/-- The invariant of Safety.lean (10 R25, R26, R36, R37, R40, R45, R48; 60 R190, R191): every step keeps it, from every
state that meets it, reached or not. -/
def Obligations.StepKeepsTheInvariant : Prop :=
  ∀ s t : State, BlockInv s → step s = .next t → BlockInv t

/-- The invariant holds right after reset, for every BUF_BYTES and BLOCK_BASE. -/
def Obligations.ResetMeetsTheInvariant : Prop :=
  BlockInv State.reset ∧ ∀ p : Params, BlockInv { State.reset with params := p }

/-! ### The commands -/

/-- 60 R190 and 30 R94: each of the twelve opcodes with no command completes, in every state and with every flag, with
ILLEGAL_CMD(OPCODE), which changes STATUS and nothing else. -/
def Obligations.IllegalOpcodesComplete : Prop :=
  ∀ (n p : Bool) (s : State) (i : Instr),
    i ∈ [Instr.illegal0 n p, .illegal5 n p, .illegal6 n p, .illegal7 n p, .illegal8 n p, .illegal9 n p,
      .illegalA n p, .illegalB n p, .illegalC n p, .illegalD n p, .illegalE n p, .illegalF n p] →
    ∃ t, exec i s = .next t ∧ t = { s with csr := { s.csr with status := t.csr.status } } ∧
      t.csr.status.word = 0x00000C56#32

/-- 40 R125, success: the bytes of the text's values stand at DST_ADDR, RES_LEN is fdiv(5n, 8), and nothing else but
STATUS changes; the windows may overlap. -/
def Obligations.B32decWritesTheDecodedBytes : Prop :=
  ∀ (pad : Bool) (s : State) (text : List Byte) (vals : List (BitVec 5)),
    InBuf s.params.bufBytes (u32 s.snap.srcAddr) (u32 s.snap.srcLen) →
    memRead s.buf (u32 s.snap.srcAddr) (u32 s.snap.srcLen) = some text →
    List.Forall₂ (fun c v => alpha (upper c) s.snap.aliasEn = some v) (trim text) vals →
    InBuf s.params.bufBytes (u32 s.snap.dstAddr) (5 * vals.length / 8) →
    ∃ t, exec (.b32dec false pad) s = .next t ∧
      t.csr = { s.csr with status := t.csr.status, resLen := BitVec.ofNat 32 (5 * vals.length / 8) } ∧
      t.csr.status.word = 0x00000002#32 ∧
      (∀ a, readByte? t.buf a =
        if u32 s.snap.dstAddr ≤ a ∧ a < u32 s.snap.dstAddr + 5 * vals.length / 8
        then (repack5to8 vals)[a - u32 s.snap.dstAddr]? else readByte? s.buf a) ∧
      t.snap = s.snap ∧ t.params = s.params ∧ t.inputs = s.inputs ∧ t.responses = s.responses ∧ t.resets = s.resets

/-- 40 R130 to R134, success: the c characters and p '=' of the encoded range stand at DST_ADDR, RES_LEN is c + p, and
nothing else but STATUS changes. -/
def Obligations.B32encWritesTheEncodedText : Prop :=
  ∀ (pad : Bool) (s : State) (d : List Byte) (c p : Nat),
    0 ≤ s32 s.snap.offset → 0 ≤ s32 s.snap.length →
    s32 s.snap.offset + s32 s.snap.length ≤ (u32 s.snap.srcLen : Int) → s32 s.snap.length < 2 ^ 28 →
    InBuf s.params.bufBytes (u32 s.snap.srcAddr) (u32 s.snap.srcLen) →
    c = (8 * (s32 s.snap.length).toNat + 4) / 5 → p = (if pad then (8 - c % 8) % 8 else 0) →
    InBuf s.params.bufBytes (u32 s.snap.dstAddr) (c + p) →
    memRead s.buf (u32 s.snap.srcAddr + (s32 s.snap.offset).toNat) (s32 s.snap.length).toNat = some d →
    ∃ t, exec (.b32enc false pad) s = .next t ∧
      t.csr = { s.csr with status := t.csr.status, resLen := BitVec.ofNat 32 (c + p) } ∧
      t.csr.status.word = 0x00000002#32 ∧
      (∀ a, readByte? t.buf a =
        if u32 s.snap.dstAddr ≤ a ∧ a < u32 s.snap.dstAddr + c
        then (repack8to5 d)[a - u32 s.snap.dstAddr]?.map alphabet
        else if u32 s.snap.dstAddr + c ≤ a ∧ a < u32 s.snap.dstAddr + c + p then some 0x3D#8
        else readByte? s.buf a) ∧
      t.snap = s.snap ∧ t.params = s.params ∧ t.inputs = s.inputs ∧ t.responses = s.responses ∧ t.resets = s.resets

/-- 41 R160 to R164, success: the token's decimal digits stand at DST_ADDR, RES_LEN is digitCount, RES_TOKEN is the
token, and nothing else but STATUS changes. -/
def Obligations.HotpgenWritesTheToken : Prop :=
  ∀ (pad : Bool) (s : State) (key : List Byte) (d tok : Nat),
    0 ≤ s64 s.snap.counter → u32 s.snap.srcLen ≠ 0 → s32 s.snap.digits = (d : Int) → 1 ≤ d → d ≤ 10 →
    InBuf s.params.bufBytes (u32 s.snap.srcAddr) (u32 s.snap.srcLen) →
    InBuf s.params.bufBytes (u32 s.snap.dstAddr) d →
    memRead s.buf (u32 s.snap.srcAddr) (u32 s.snap.srcLen) = some key →
    tok = truncate (hmacSha1 key (beBytes 8 s.snap.counter.toNat)) % 10 ^ d →
    ∃ t, exec (.hotpgen false pad) s = .next t ∧
      t.csr = { s.csr with
        status := t.csr.status, resLen := BitVec.ofNat 32 d, resToken := t.csr.resToken } ∧
      t.csr.resToken.toNat = tok ∧
      t.csr.status.word = 0x00000002#32 ∧
      (∀ a, readByte? t.buf a =
        if u32 s.snap.dstAddr ≤ a ∧ a < u32 s.snap.dstAddr + d
        then some (BitVec.ofNat 8 (0x30 + tok / 10 ^ (d - 1 - (a - u32 s.snap.dstAddr)) % 10))
        else readByte? s.buf a) ∧
      t.snap = s.snap ∧ t.params = s.params ∧ t.inputs = s.inputs ∧ t.responses = s.responses ∧ t.resets = s.resets

/-- 41 R165 and R166: TOTPCNT with STEP > 0 completes in every state and with every flag, RES_CNT_HI:RES_CNT_LO is the
truncated quotient mod 2^64, and nothing else but STATUS changes; with STEP ≤ 0 it fails with INVALID_ARGUMENT(STEP). -/
def Obligations.TotpcntWritesTheStepCounter : Prop :=
  ∀ (n pad : Bool) (s : State),
    (0 < s.snap.step.toInt →
      ∃ t, exec (.totpcnt n pad) s = .next t ∧
        t = { s with csr := { s.csr with
          status := t.csr.status, resCntLo := t.csr.resCntLo, resCntHi := t.csr.resCntHi } } ∧
        ((t.csr.resCntHi ++ t.csr.resCntLo).toNat : Int) =
          Int.tdiv (s.snap.now.toInt - s.snap.epoch.toInt) s.snap.step.toInt % 2 ^ 64 ∧
        t.csr.status.word = 0x00000002#32) ∧
    (s.snap.step.toInt ≤ 0 →
      ∃ t, exec (.totpcnt n pad) s = .next t ∧
        t = { s with csr := { s.csr with status := t.csr.status } } ∧ t.csr.status.word = 0x00000936#32)

/-- 60 R193: each command reports the first error that applies in the order of the table, as the STATUS words of
95_test_vectors.md, whatever comes after it in that order. (An opcode with no command: IllegalOpcodesComplete.) -/
def Obligations.CommandsReportTheFirstError : Prop :=
  ∀ (pad : Bool) (s : State),
    let S := s.snap
    let N := s.params.bufBytes
    let Fails (i : Instr) (word : Word) : Prop :=
      ∃ t, exec i s = .next t ∧ t.csr.status.word = word ∧ t = { s with csr := { s.csr with status := t.csr.status } }
    -- any opcode with no command
    (S.op ∉ ([1#4, 2#4, 3#4, 4#4] : List (BitVec 4)) → Fails S.command 0x00000C56#32) ∧
    -- B32DEC
    Fails (.b32dec true pad) 0x00000116#32 ∧
    (¬ InBuf N (u32 S.srcAddr) (u32 S.srcLen) → Fails (.b32dec false pad) 0x00000A46#32) ∧
    (InBuf N (u32 S.srcAddr) (u32 S.srcLen) → ∀ text, memRead s.buf (u32 S.srcAddr) (u32 S.srcLen) = some text →
      ((∃ c ∈ trim text, alpha (upper c) S.aliasEn = none) → Fails (.b32dec false pad) 0x00000126#32) ∧
      ((∀ c ∈ trim text, alpha (upper c) S.aliasEn ≠ none) →
        ¬ InBuf N (u32 S.dstAddr) (5 * (trim text).length / 8) → Fails (.b32dec false pad) 0x00000B46#32)) ∧
    -- B32ENC
    Fails (.b32enc true pad) 0x00000116#32 ∧
    (s32 S.offset < 0 → Fails (.b32enc false pad) 0x00000236#32) ∧
    (0 ≤ s32 S.offset → s32 S.length < 0 → Fails (.b32enc false pad) 0x00000336#32) ∧
    (0 ≤ s32 S.offset → 0 ≤ s32 S.length → (u32 S.srcLen : Int) < s32 S.offset + s32 S.length →
      Fails (.b32enc false pad) 0x00000436#32) ∧
    (0 ≤ s32 S.offset → s32 S.offset + s32 S.length ≤ (u32 S.srcLen : Int) → 2 ^ 28 ≤ s32 S.length →
      Fails (.b32enc false pad) 0x00000536#32) ∧
    (0 ≤ s32 S.offset → 0 ≤ s32 S.length → s32 S.offset + s32 S.length ≤ (u32 S.srcLen : Int) →
      s32 S.length < 2 ^ 28 →
      (¬ InBuf N (u32 S.srcAddr) (u32 S.srcLen) → Fails (.b32enc false pad) 0x00000A46#32) ∧
      (InBuf N (u32 S.srcAddr) (u32 S.srcLen) → ∀ c, c = (8 * (s32 S.length).toNat + 4) / 5 →
        ¬ InBuf N (u32 S.dstAddr) (c + if pad then (8 - c % 8) % 8 else 0) →
        Fails (.b32enc false pad) 0x00000B46#32)) ∧
    -- HOTPGEN
    Fails (.hotpgen true pad) 0x00000116#32 ∧
    (s64 S.counter < 0 → Fails (.hotpgen false pad) 0x00000636#32) ∧
    (0 ≤ s64 S.counter → u32 S.srcLen = 0 → Fails (.hotpgen false pad) 0x00000736#32) ∧
    (0 ≤ s64 S.counter → u32 S.srcLen ≠ 0 → (s32 S.digits < 1 ∨ 10 < s32 S.digits) →
      Fails (.hotpgen false pad) 0x00000836#32) ∧
    (0 ≤ s64 S.counter → u32 S.srcLen ≠ 0 → 1 ≤ s32 S.digits → s32 S.digits ≤ 10 →
      (¬ InBuf N (u32 S.srcAddr) (u32 S.srcLen) → Fails (.hotpgen false pad) 0x00000A46#32) ∧
      (InBuf N (u32 S.srcAddr) (u32 S.srcLen) → ¬ InBuf N (u32 S.dstAddr) (s32 S.digits).toNat →
        Fails (.hotpgen false pad) 0x00000B46#32)) ∧
    -- TOTPCNT
    (∀ n, s32 S.step ≤ 0 → Fails (.totpcnt n pad) 0x00000936#32)

/-- 20 R70 with 93 U6 (log entry 6): a command stops with a model fault exactly where, its checks before the read passed,
a byte it reads was never written since reset; TOTPCNT and the opcodes with no command never stop, and no command is
refused. -/
def Obligations.CommandsStopOnlyOnUnwrittenInput : Prop :=
  ∀ (s : State) (n pad : Bool) (f : Fault),
    (exec (.b32dec n pad) s = .fault f ↔
      f = .unwrittenBufByte ∧ n = false ∧ InBuf s.params.bufBytes (u32 s.snap.srcAddr) (u32 s.snap.srcLen) ∧
        ∃ k, k < u32 s.snap.srcLen ∧ readByte? s.buf (u32 s.snap.srcAddr + k) = none) ∧
    (exec (.b32enc n pad) s = .fault f ↔
      f = .unwrittenBufByte ∧ n = false ∧ 0 ≤ s32 s.snap.offset ∧ 0 ≤ s32 s.snap.length ∧
        s32 s.snap.offset + s32 s.snap.length ≤ (u32 s.snap.srcLen : Int) ∧ s32 s.snap.length < 2 ^ 28 ∧
        InBuf s.params.bufBytes (u32 s.snap.srcAddr) (u32 s.snap.srcLen) ∧
        (let c := (8 * (s32 s.snap.length).toNat + 4) / 5
         InBuf s.params.bufBytes (u32 s.snap.dstAddr) (c + if pad then (8 - c % 8) % 8 else 0)) ∧
        ∃ k, k < (s32 s.snap.length).toNat ∧
          readByte? s.buf (u32 s.snap.srcAddr + (s32 s.snap.offset).toNat + k) = none) ∧
    (exec (.hotpgen n pad) s = .fault f ↔
      f = .unwrittenBufByte ∧ n = false ∧ 0 ≤ s64 s.snap.counter ∧ u32 s.snap.srcLen ≠ 0 ∧
        1 ≤ s32 s.snap.digits ∧ s32 s.snap.digits ≤ 10 ∧
        InBuf s.params.bufBytes (u32 s.snap.srcAddr) (u32 s.snap.srcLen) ∧
        InBuf s.params.bufBytes (u32 s.snap.dstAddr) (s32 s.snap.digits).toNat ∧
        ∃ k, k < u32 s.snap.srcLen ∧ readByte? s.buf (u32 s.snap.srcAddr + k) = none) ∧
    (∀ i : Instr, (∀ n p, i ≠ .b32dec n p ∧ i ≠ .b32enc n p ∧ i ≠ .hotpgen n p) → exec i s ≠ .fault f) ∧
    (∀ (i : Instr) (r : Refusal), exec i s ≠ .refused r)

/-- 60 R195: a completion with error writes exactly ERR, ERRCODE, ERRPARAM, BUSY and DONE: no BUF byte, no result
register, no operand register, not CTRL. -/
def Obligations.ErrorCompletionWritesOnlyStatus : Prop :=
  ∀ (i : Instr) (s t : State), exec i s = .next t → t.csr.status.err = true →
    ∃ (code : ErrCode) (param : ErrParam), code ≠ .noError ∧ param.usedWith code = true ∧
      t = { s with csr := { s.csr with
        status := { busy := false, done := true, err := true, errcode := code, errparam := param } } }

/-- The frame of the commands that store nothing (41 R165, 60 R190): TOTPCNT and the twelve opcodes with no command.
TOTPCNT may change RES_CNT; STATUS changes; every other register, the snapshot and every BUF byte stay. -/
def Obligations.FrameOfCommandsThatStoreNothing : Prop :=
  ∀ (n p : Bool) (s t : State) (i : Instr),
    i ∈ [Instr.totpcnt n p, .illegal0 n p, .illegal5 n p, .illegal6 n p, .illegal7 n p, .illegal8 n p, .illegal9 n p,
      .illegalA n p, .illegalB n p, .illegalC n p, .illegalD n p, .illegalE n p, .illegalF n p] →
    exec i s = .next t →
    t = { s with csr := { s.csr with
      status := t.csr.status, resCntLo := t.csr.resCntLo, resCntHi := t.csr.resCntHi } } ∧
    (i ≠ .totpcnt n p → t.csr.resCntLo = s.csr.resCntLo ∧ t.csr.resCntHi = s.csr.resCntHi) ∧
    (∀ a, readByte? t.buf a = readByte? s.buf a)

/-- The frame of the commands that store (40 R125, R130; 41 R160; 10 R36 to R38; 60 R195): B32DEC, B32ENC and HOTPGEN store
at S.dst_addr, on success the RES_LEN bytes from there and on error none; every other BUF byte, every operand register,
CTRL, CMD, RES_CNT and, but for HOTPGEN, RES_TOKEN stay. -/
def Obligations.FrameOfCommandsThatStore : Prop :=
  ∀ (n p : Bool) (s t : State) (i : Instr),
    i ∈ [Instr.b32dec n p, .b32enc n p, .hotpgen n p] → exec i s = .next t →
    t.csr = { s.csr with
      status := t.csr.status, resLen := t.csr.resLen, resToken := t.csr.resToken } ∧
    (i ≠ .hotpgen n p → t.csr.resToken = s.csr.resToken) ∧
    t.snap = s.snap ∧ t.params = s.params ∧ t.inputs = s.inputs ∧ t.responses = s.responses ∧ t.resets = s.resets ∧
    (t.csr.status.err = true →
      t.csr.resLen = s.csr.resLen ∧ t.csr.resToken = s.csr.resToken ∧
        ∀ a, readByte? t.buf a = readByte? s.buf a) ∧
    (t.csr.status.err = false → ∀ a, a < u32 s.snap.dstAddr ∨ u32 s.snap.dstAddr + t.csr.resLen.toNat ≤ a →
      readByte? t.buf a = readByte? s.buf a)

/-- 10 R43 and 41 R151: the outcome of the command in flight depends only on its snapshot and the BUF bytes of its input window: two
blocks of one BUF size that agree on those end it with the same STATUS, the same results and the same output bytes,
whatever else they hold. -/
def Obligations.OutcomeDependsOnlyOnSnapshotAndInput : Prop :=
  ∀ s s' t : State, s.snap = s'.snap → s.params.bufBytes = s'.params.bufBytes →
    (∀ a, (inputWindow s.snap).1 ≤ a → a < (inputWindow s.snap).1 + (inputWindow s.snap).2 →
      readByte? s.buf a = readByte? s'.buf a) →
    exec s.snap.command s = .next t →
    ∃ t', exec s'.snap.command s' = .next t' ∧ t'.csr.status = t.csr.status ∧
      (t.csr.status.err = false →
        (s.snap.op ∈ ([1#4, 2#4, 3#4] : List (BitVec 4)) →
          t'.csr.resLen = t.csr.resLen ∧
          ∀ a, u32 s.snap.dstAddr ≤ a → a < u32 s.snap.dstAddr + t.csr.resLen.toNat →
            readByte? t'.buf a = readByte? t.buf a ∧ (readByte? t.buf a).isSome = true) ∧
        (s.snap.op = 3#4 → t'.csr.resToken = t.csr.resToken) ∧
        (s.snap.op = 4#4 → t'.csr.resCntHi = t.csr.resCntHi ∧ t'.csr.resCntLo = t.csr.resCntLo))

/-- 40 R128: a text that trims to nothing decodes to nothing: success, RES_LEN 0, no BUF byte written, wherever DST_ADDR
points; the source's three examples are such texts. -/
def Obligations.EmptyTextDecodesToNothing : Prop :=
  (∀ (pad : Bool) (s : State) (text : List Byte),
    InBuf s.params.bufBytes (u32 s.snap.srcAddr) (u32 s.snap.srcLen) →
    memRead s.buf (u32 s.snap.srcAddr) (u32 s.snap.srcLen) = some text → trim text = [] →
    ∃ t, exec (.b32dec false pad) s = .next t ∧ t.csr.status.err = false ∧ t.csr.resLen = 0#32 ∧ t.buf = s.buf) ∧
  (∀ text : List Byte, (∀ c ∈ text, isWS c = true) → trim text = []) ∧
  (∀ (a b : List Byte) (k : Nat), (∀ c ∈ a, isWS c = true) → (∀ c ∈ b, isWS c = true) →
    trim (a ++ List.replicate k 0x3D#8 ++ b) = []) ∧
  trim [] = [] ∧ trim [0x20#8, 0x20#8, 0x20#8] = [] ∧ trim [0x3D#8, 0x3D#8, 0x3D#8, 0x3D#8] = []

/-! ### The codec -/

/-- 40 R123: what Trim leaves: leading and trailing WS go first, then the trailing '=', once each; its two examples; and
WS or '=' that it leaves in the text has no value. -/
def Obligations.TrimStripsOnce : Prop :=
  (∀ c : Byte, isWS c = true ↔ c ∈ ([0x09#8, 0x0A#8, 0x0B#8, 0x0C#8, 0x0D#8, 0x20#8] : List Byte)) ∧
  (∀ t : List Byte, ∃ (a b : List Byte) (k : Nat),
    t = a ++ trim t ++ List.replicate k 0x3D#8 ++ b ∧
    (∀ c ∈ a, isWS c = true) ∧ (∀ c ∈ b, isWS c = true) ∧
    (∀ c, (trim t).head? = some c → isWS c = false) ∧
    (∀ c, (trim t).getLast? = some c → c ≠ 0x3D#8 ∧ (k = 0 → isWS c = false))) ∧
  (∀ (t : List Byte) (aliasEn : Bool), (∃ c ∈ trim t, c = 0x3D#8 ∨ isWS c = true) → textValues aliasEn (trim t) = none) ∧
  trim [0x4D#8, 0x5A#8, 0x3D#8, 0x3D#8, 0x20#8] = [0x4D#8, 0x5A#8] ∧
  trim [0x4D#8, 0x5A#8, 0x20#8, 0x3D#8, 0x3D#8] = [0x4D#8, 0x5A#8, 0x20#8]

/-- 30 R98: the decode alphabet, code by code. -/
def Obligations.AlphaIsTheDecodeAlphabet : Prop :=
  ∀ (c : Byte) (aliasEn : Bool),
    (0x41 ≤ c.toNat ∧ c.toNat ≤ 0x5A → (alpha c aliasEn).map (·.toNat) = some (c.toNat - 0x41)) ∧
    (0x32 ≤ c.toNat ∧ c.toNat ≤ 0x37 → (alpha c aliasEn).map (·.toNat) = some (c.toNat - 0x18)) ∧
    (c = 0x30#8 → (alpha c aliasEn).map (·.toNat) = if aliasEn then some 14 else none) ∧
    (c = 0x31#8 → (alpha c aliasEn).map (·.toNat) = if aliasEn then some 8 else none) ∧
    (c = 0x38#8 → (alpha c aliasEn).map (·.toNat) = if aliasEn then some 1 else none) ∧
    (c.toNat < 0x30 ∨ c.toNat = 0x39 ∨ (0x3A ≤ c.toNat ∧ c.toNat ≤ 0x40) ∨ 0x5A < c.toNat → alpha c aliasEn = none)

/-- 30 R97, 40 R121 and R122: the encode alphabet is 'A' to 'Z' then '2' to '7'; the decoder reads each of its characters
back, aliases on or off; it holds no alias character; and Upper moves exactly 'a' to 'z'. -/
def Obligations.AlphabetIsReadBack : Prop :=
  (∀ v : BitVec 5, (v.toNat ≤ 25 → (alphabet v).toNat = 0x41 + v.toNat) ∧
    (26 ≤ v.toNat → (alphabet v).toNat = 0x32 + (v.toNat - 26))) ∧
  (∀ (v : BitVec 5) (aliasEn : Bool), alpha (upper (alphabet v)) aliasEn = some v) ∧
  (∀ v : BitVec 5, alphabet v ≠ 0x30#8 ∧ alphabet v ≠ 0x31#8 ∧ alphabet v ≠ 0x38#8) ∧
  (∀ c : Byte, (0x61 ≤ c.toNat ∧ c.toNat ≤ 0x7A → (upper c).toNat = c.toNat - 0x20) ∧
    (¬ (0x61 ≤ c.toNat ∧ c.toNat ≤ 0x7A) → upper c = c))

/-- 40 R127: the decoded bytes are the 5-bit values' bits, most significant first, cut into bytes from the left, an
incomplete last byte dropped; the dropped bits are not checked, so "MZ" and "M3" both decode to 66. -/
def Obligations.DecodedBytesAreTheValuesBits : Prop :=
  (∀ vals : List (BitVec 5),
    (repack5to8 vals).length = 5 * vals.length / 8 ∧
    ∀ i, i < 8 * (5 * vals.length / 8) →
      ((repack5to8 vals)[i / 8]?).map (fun b => b.getMsbD (i % 8)) = (vals[i / 5]?).map (fun v => v.getMsbD (i % 5))) ∧
  (∀ aliasEn : Bool, (textValues aliasEn (trim [0x4D#8, 0x5A#8])).map repack5to8 = some [0x66#8] ∧
    (textValues aliasEn (trim [0x4D#8, 0x33#8])).map repack5to8 = some [0x66#8])

/-- 40 R132: the characters' indices are the data's bits, most significant first, cut into fives from the left, the last
group filled with zeros on the right; the text without padding is their characters. -/
def Obligations.EncodedIndicesAreTheBytesBits : Prop :=
  ∀ d : List Byte,
    (repack8to5 d).length = (8 * d.length + 4) / 5 ∧
    (∀ i, i < 5 * (repack8to5 d).length →
      ((repack8to5 d)[i / 5]?).map (fun v => v.getMsbD (i % 5)) =
        some (((d[i / 8]?).map (fun b => b.getMsbD (i % 8))).getD false)) ∧
    encodeText false d = (repack8to5 d).map alphabet

/-- 40 R133 and R134: for L = 5q + r bytes there are 8q + (0, 2, 4, 5, 7) characters and, with PAD, (0, 6, 4, 3, 1) '=', so
that the padded length is a multiple of 8; without PAD there is none. -/
def Obligations.EncodedTextHasItsLength : Prop :=
  ∀ (d : List Byte) (q r : Nat), d.length = 5 * q + r → r < 5 →
    ∃ c p : Nat,
      c = 8 * q + [0, 2, 4, 5, 7].getD r 0 ∧ p = [0, 6, 4, 3, 1].getD r 0 ∧ p = (8 - c % 8) % 8 ∧
      c = (8 * d.length + 4) / 5 ∧ (c + p) % 8 = 0 ∧
      (encodeText false d).length = c ∧ (encodeText true d).length = c + p ∧
      encodeText true d = encodeText false d ++ List.replicate p 0x3D#8

/-- 40 R135: decoding what the encoder made gives the bytes back, padded or not, aliases on or off; the encoder's text
holds no alias character, and its c unpadded characters make fdiv(5c, 8) bytes. -/
def Obligations.CodecRoundTrip : Prop :=
  ∀ (d : List Byte) (pad aliasEn : Bool),
    (textValues aliasEn (trim (encodeText pad d))).map repack5to8 = some d ∧
    (∀ c ∈ encodeText pad d, c ≠ 0x30#8 ∧ c ≠ 0x31#8 ∧ c ≠ 0x38#8) ∧
    5 * (encodeText false d).length / 8 = d.length

/-- 40 R135 on the machine: a successful B32ENC followed by a B32DEC of the text it left at DST_ADDR, whatever the other
operands and wherever in BUF the bytes fit, puts the encoded range's bytes at the second DST_ADDR. -/
def Obligations.EncodeThenDecodeOnTheMachine : Prop :=
  ∀ (s t : State) (pad pad' : Bool) (S : Snapshot),
    exec (.b32enc false pad) s = .next t → t.csr.status.err = false →
    S.srcAddr = s.snap.dstAddr → S.srcLen = t.csr.resLen →
    InBuf s.params.bufBytes (u32 S.dstAddr) (s32 s.snap.length).toNat →
    ∃ u, exec (.b32dec false pad') { t with snap := S } = .next u ∧ u.csr.status.err = false ∧
      u.csr.resLen = s.snap.length ∧
      memRead u.buf (u32 S.dstAddr) (s32 s.snap.length).toNat =
        memRead s.buf (u32 s.snap.srcAddr + (s32 s.snap.offset).toNat) (s32 s.snap.length).toNat

/-- 40 R120, R121, R122 and R129: trimming commutes with letter case and with writing 0, 1 and 8 for O, I and B; letter
case never matters to decoding, and with aliases on neither do 0, 1 and 8; with aliases off a text that holds one of them
anywhere has no value. -/
def Obligations.DecodingIgnoresCaseAndAliases : Prop :=
  let lookalike : Byte → Byte := fun c =>
    if c = 0x4F#8 then 0x30#8 else if c = 0x49#8 then 0x31#8 else if c = 0x42#8 then 0x38#8 else c
  (∀ t : List Byte, trim (t.map upper) = (trim t).map upper ∧ trim (t.map lookalike) = (trim t).map lookalike) ∧
  (∀ (t : List Byte) (aliasEn : Bool), textValues aliasEn (t.map upper) = textValues aliasEn t ∧
    (textValues aliasEn (trim (t.map upper))).map repack5to8 = (textValues aliasEn (trim t)).map repack5to8) ∧
  (∀ t : List Byte, textValues true (t.map lookalike) = textValues true t ∧
    (textValues true (trim (t.map lookalike))).map repack5to8 = (textValues true (trim t)).map repack5to8) ∧
  (∀ t : List Byte, (∃ c ∈ t, c = 0x30#8 ∨ c = 0x31#8 ∨ c = 0x38#8) →
    textValues false t = none ∧ textValues false (trim t) = none)

/-! ### The token pipeline -/

/-- 30 R101 and 41 R161: the counter message is 8 bytes, big-endian, of the counter with its sign bit masked off, so bit 7
of byte 0 is 0. -/
def Obligations.CounterMessageIsBigEndian : Prop :=
  ∀ counter : DWord,
    (counterMessage counter).length = 8 ∧
    beVal (counterMessage counter) = (counter &&& 0x7FFFFFFFFFFFFFFF#64).toNat ∧
    (∀ b, (counterMessage counter)[0]? = some b → b.getLsbD 7 = false) ∧
    (0 ≤ counter.toInt → beVal (counterMessage counter) = counter.toNat)

/-- 41 R163: dynamic truncation of a 20-byte digest reads the four bytes at the low nibble of byte 19, top bit masked; it
never reads past the end and gives a 31-bit number. -/
def Obligations.TruncationReadsFourBytesAtTheOffset : Prop :=
  ∀ h : List Byte, h.length = 20 →
    ∃ (off : Nat) (b19 b0 b1 b2 b3 : Byte),
      h[19]? = some b19 ∧ off = b19.toNat % 16 ∧ off + 3 < 19 ∧
      h[off]? = some b0 ∧ h[off + 1]? = some b1 ∧ h[off + 2]? = some b2 ∧ h[off + 3]? = some b3 ∧
      truncate h = (b0.toNat % 128) * 2 ^ 24 + b1.toNat * 2 ^ 16 + b2.toNat * 2 ^ 8 + b3.toNat ∧
      truncate h < 2 ^ 31

/-- 30 R100: a token of d digits is d ASCII digit codes, most significant first, left-padded with '0', whose decimal value
is the token. -/
def Obligations.TokenTextIsItsDecimalValue : Prop :=
  ∀ t d : Nat, t < 10 ^ d →
    (decimalText t d).length = d ∧
    (∀ i, i < d → (decimalText t d)[i]? = some (BitVec.ofNat 8 (0x30 + t / 10 ^ (d - 1 - i) % 10))) ∧
    (∀ b ∈ decimalText t d, 0x30 ≤ b.toNat ∧ b.toNat ≤ 0x39) ∧
    (decimalText t d).foldl (fun acc b => acc * 10 + (b.toNat - 0x30)) 0 = t

/-- 41 R162, R164, R170 and R175: HMAC-SHA1 gives 20 bytes for every key and message; a key longer than 64 bytes gives the
digest of its SHA-1, and zeros after a key, up to 64 bytes, change no digest; a token of d digits is below 10^d and below
2^31. What the digest is: HmacFollowsItsConstruction and the statements about SHA-1. -/
def Obligations.DigestAndTokenAreInRange : Prop :=
  (∀ key msg : List Byte, (hmacSha1 key msg).length = 20) ∧
  (∀ msg : List Byte, (sha1 msg).length = 20) ∧
  (∀ key msg : List Byte, 64 < key.length → hmacSha1 key msg = hmacSha1 (sha1 key) msg) ∧
  (∀ (key msg : List Byte) (k : Nat), key.length + k ≤ 64 →
    hmacSha1 (key ++ List.replicate k 0#8) msg = hmacSha1 key msg) ∧
  (∀ (key : List Byte) (counter : DWord) (d : Nat),
    hotpToken key counter d < 10 ^ d ∧ hotpToken key counter d < 2 ^ 31)

/-- 41 R171: the padded SHA-1 message is the message, 0x80, the least number of zeros that makes 56 mod 64, and the bit
length in 8 big-endian bytes: whole 64-byte blocks, each read as sixteen big-endian words. -/
def Obligations.Sha1PaddingMakesWholeBlocks : Prop :=
  (∀ msg : List Byte, ∃ k : Nat,
    sha1Pad msg = msg ++ [0x80#8] ++ List.replicate k 0#8 ++ beBytes 8 (8 * msg.length) ∧
    (msg.length + 1 + k) % 64 = 56 ∧ (∀ j, j < k → (msg.length + 1 + j) % 64 ≠ 56) ∧
    (sha1Pad msg).length % 64 = 0 ∧
    (8 * msg.length < 2 ^ 64 → beVal (beBytes 8 (8 * msg.length)) = 8 * msg.length)) ∧
  (∀ block : List Byte, block.length = 64 →
    (sha1BlockWords block).length = 16 ∧
    ∀ t, t < 16 → (sha1BlockWords block)[t]? = some (BitVec.ofNat 32 (beVal ((block.drop (4 * t)).take 4))))

/-- 41 R172: the schedule has 80 words, the block's sixteen first, and each later one is the rotated exclusive-or of the
words 3, 8, 14 and 16 places before it. -/
def Obligations.Sha1ScheduleFollowsItsRecurrence : Prop :=
  ∀ block : List Byte, block.length = 64 →
    (sha1Schedule block).length = 80 ∧ (sha1Schedule block).take 16 = sha1BlockWords block ∧
    ∀ t, 16 ≤ t → t < 80 →
      (sha1Schedule block).getD t 0#32 =
        ((sha1Schedule block).getD (t - 3) 0#32 ^^^ (sha1Schedule block).getD (t - 8) 0#32 ^^^
          (sha1Schedule block).getD (t - 14) 0#32 ^^^ (sha1Schedule block).getD (t - 16) 0#32).rotateLeft 1

/-- 41 R166: the quotient agrees with floor division for now ≥ epochStart, and for a negative dividend it is one greater
unless stepSize divides it. -/
def Obligations.StepCounterTruncatesTowardZero : Prop :=
  ∀ now epoch step : Int, 0 < step →
    (0 ≤ now - epoch → stepCounter now epoch step = Int.fdiv (now - epoch) step) ∧
    (now - epoch < 0 → (now - epoch) % step ≠ 0 → stepCounter now epoch step = Int.fdiv (now - epoch) step + 1) ∧
    (now - epoch < 0 → (now - epoch) % step = 0 → stepCounter now epoch step = Int.fdiv (now - epoch) step)

/-- 41 R168, counter monotonicity on the machine: for one EPOCH and one STEP > 0, a later NOW never gives a smaller
RES_CNT, unless a quotient leaves the s64 range (the exception the rule names). -/
def Obligations.StepCounterIsMonotone : Prop :=
  ∀ (n p n' p' : Bool) (s s' t t' : State),
    s.snap.epoch = s'.snap.epoch → s.snap.step = s'.snap.step → 0 < s32 s.snap.step →
    s64 s.snap.now ≤ s64 s'.snap.now →
    exec (.totpcnt n p) s = .next t → exec (.totpcnt n' p') s' = .next t' →
    -(2 ^ 63) ≤ stepCounter (s64 s.snap.now) (s32 s.snap.epoch) (s32 s.snap.step) →
    stepCounter (s64 s'.snap.now) (s32 s'.snap.epoch) (s32 s'.snap.step) < 2 ^ 63 →
    s64 (pair64 t.csr.resCntHi t.csr.resCntLo) ≤ s64 (pair64 t'.csr.resCntHi t'.csr.resCntLo)

/-! ### The keyed hash -/

/-- 41 R170: the construction, the key hashed first exactly when it is longer than 64 bytes, then filled with zeros to one
block; the two pads; the two hashes. -/
def Obligations.HmacFollowsItsConstruction : Prop :=
  ∀ key msg : List Byte, ∃ k' k0 inner : List Byte,
    (64 < key.length → k' = sha1 key) ∧ (key.length ≤ 64 → k' = key) ∧
    k0 = k' ++ List.replicate (64 - k'.length) 0x00#8 ∧ k0.length = 64 ∧
    inner = sha1 (List.zipWith (fun x y => x ^^^ y) k0 (List.replicate 64 0x36#8) ++ msg) ∧
    hmacSha1 key msg = sha1 (List.zipWith (fun x y => x ^^^ y) k0 (List.replicate 64 0x5C#8) ++ inner) ∧
    (hmacSha1 key msg).length = 20

/-- 41 R173 and R174: the compression of a block is eighty rounds of the five working words, each with its round function,
its constant and its schedule word, added to the words it began with. -/
def Obligations.Sha1CompressionFollowsItsRounds : Prop :=
  (∀ (t : Nat) (b c d : Word),
    (t < 20 → sha1F t b c d = (b &&& c) ^^^ (~~~b &&& d) ∧ sha1K t = 0x5A827999#32) ∧
    (20 ≤ t → t < 40 → sha1F t b c d = b ^^^ c ^^^ d ∧ sha1K t = 0x6ED9EBA1#32) ∧
    (40 ≤ t → t < 60 → sha1F t b c d = (b &&& c) ^^^ (b &&& d) ^^^ (c &&& d) ∧ sha1K t = 0x8F1BBCDC#32) ∧
    (60 ≤ t → t < 80 → sha1F t b c d = b ^^^ c ^^^ d ∧ sha1K t = 0xCA62C1D6#32)) ∧
  (∀ (h : Sha1Words) (block : List Byte), block.length = 64 →
    ∃ a b c d e : Nat → Word,
      a 0 = h.a ∧ b 0 = h.b ∧ c 0 = h.c ∧ d 0 = h.d ∧ e 0 = h.e ∧
      (∀ t, t < 80 →
        a (t + 1) = (a t).rotateLeft 5 + sha1F t (b t) (c t) (d t) + e t + sha1K t + (sha1Schedule block).getD t 0#32 ∧
        e (t + 1) = d t ∧ d (t + 1) = c t ∧ c (t + 1) = (b t).rotateLeft 30 ∧ b (t + 1) = a t) ∧
      sha1Compress h block =
        { a := h.a + a 80, b := h.b + b 80, c := h.c + c 80, d := h.d + d 80, e := h.e + e 80 })

/-- 41 R175: SHA-1 starts from the five initial words, compresses the blocks of the padded message in order, and gives the
last five words big-endian; byte 19 is the low byte of H4. -/
def Obligations.Sha1StartsAndEndsAsItsRule : Prop :=
  ∀ msg : List Byte, ∃ H : Nat → Sha1Words,
    let n := (sha1Pad msg).length / 64
    let be4 : Word → List Byte := fun w =>
      [w.extractLsb' 24 8, w.extractLsb' 16 8, w.extractLsb' 8 8, w.extractLsb' 0 8]
    H 0 = { a := 0x67452301#32, b := 0xEFCDAB89#32, c := 0x98BADCFE#32, d := 0x10325476#32, e := 0xC3D2E1F0#32 } ∧
    (∀ i, i < n → H (i + 1) = sha1Compress (H i) (((sha1Pad msg).drop (64 * i)).take 64)) ∧
    sha1 msg = be4 (H n).a ++ be4 (H n).b ++ be4 (H n).c ++ be4 (H n).d ++ be4 (H n).e ∧
    (sha1 msg).length = 20 ∧ (sha1 msg)[19]? = some ((H n).e.extractLsb' 0 8)
end

