-- ==== Sys2Proof/Laws/Memory.lean ====
section
/-! SUPPORT. BUF: a read after a write, windows read and written, and the canonical form kept by every operation. -/

namespace Sys2Proof.Machine

@[simp] theorem readByte?_nil (a : Nat) : readByte? [] a = none := rfl

theorem readByte?_writeByte (m : Memory) (a i : Nat) (v : Byte) :
    readByte? (writeByte m a v) i = if i = a then some v else readByte? m i := by
  induction m with
  | nil => simp [writeByte, readByte?, eq_comm]
  | cons c m ih =>
    obtain ⟨k, b⟩ := c
    simp only [writeByte]
    split
    · by_cases h : i = a
      · simp [readByte?, h]
      · simp [readByte?, h, Ne.symm h]
    · split
      · next h =>
        subst h
        by_cases h : i = a
        · simp [readByte?, h]
        · simp [readByte?, h, Ne.symm h]
      · by_cases hk : k = i
        · subst hk
          have : ¬ k = a := by omega
          simp [readByte?, this]
        · simp [readByte?, hk, ih]

/-- An entry of a written memory is the written one or an old one. -/
theorem mem_writeByte {m : Memory} {a : Nat} {v : Byte} {c : Host.Cell} (h : c ∈ writeByte m a v) :
    c = (a, v) ∨ c ∈ m := by
  induction m with
  | nil => simpa [writeByte] using h
  | cons d m ih =>
    obtain ⟨k, b⟩ := d
    simp only [writeByte] at h
    split at h
    · simpa using h
    · split at h
      · rcases List.mem_cons.mp h with h | h
        · exact .inl h
        · exact .inr (List.mem_cons_of_mem _ h)
      · rcases List.mem_cons.mp h with h | h
        · exact .inr (h ▸ List.mem_cons_self ..)
        · exact (ih h).imp_right (List.mem_cons_of_mem _)

theorem writeByte_wf {m : Memory} (a : Nat) (v : Byte) (h : Memory.wf m) : Memory.wf (writeByte m a v) := by
  induction m with
  | nil => simp [Memory.wf, writeByte]
  | cons d m ih =>
    obtain ⟨k, b⟩ := d
    have hd := List.pairwise_cons.mp h
    simp only [writeByte]
    split
    · next hlt =>
      refine List.pairwise_cons.mpr ⟨?_, h⟩
      intro c hc
      rcases List.mem_cons.mp hc with rfl | hc
      · exact hlt
      · exact Nat.lt_trans hlt (hd.1 c hc)
    · split
      · next he =>
        subst he
        exact List.pairwise_cons.mpr hd
      · next hlt hne =>
        refine List.pairwise_cons.mpr ⟨?_, ih hd.2⟩
        intro c hc
        rcases mem_writeByte hc with rfl | hc
        · show k < a
          omega
        · exact hd.1 c hc

/-- What a window write leaves at every index (20 R67, R68). -/
theorem readByte?_memWrite (m : Memory) (a i : Nat) (bs : List Byte) :
    readByte? (memWrite m a bs) i =
      if a ≤ i ∧ i < a + bs.length then bs[i - a]? else readByte? m i := by
  induction bs generalizing m a with
  | nil =>
    have : ¬ (a ≤ i ∧ i < a) := by omega
    simp [memWrite, this]
  | cons b bs ih =>
    rw [memWrite, ih, readByte?_writeByte]
    by_cases h0 : i = a
    · subst h0
      simp
    · by_cases h1 : a + 1 ≤ i ∧ i < a + 1 + bs.length
      · have h2 : a ≤ i ∧ i < a + (b :: bs).length := by simp; omega
        have h3 : i - a = (i - (a + 1)) + 1 := by omega
        rw [if_pos h1, if_pos h2, h3, List.getElem?_cons_succ]
      · have h2 : ¬ (a ≤ i ∧ i < a + (b :: bs).length) := by simp; omega
        rw [if_neg h1, if_neg h2, if_neg h0]

theorem readByte?_memWrite_outside {m : Memory} {a i : Nat} {bs : List Byte} (h : i < a ∨ a + bs.length ≤ i) :
    readByte? (memWrite m a bs) i = readByte? m i := by
  rw [readByte?_memWrite, if_neg (by omega)]

theorem memWrite_wf {m : Memory} (a : Nat) (bs : List Byte) (h : Memory.wf m) : Memory.wf (memWrite m a bs) := by
  induction bs generalizing m a with
  | nil => exact h
  | cons b bs ih => exact ih _ (writeByte_wf a b h)

/-- An entry of memory after a window write is an old one or lies in the window. -/
theorem mem_memWrite {m : Memory} {a : Nat} {bs : List Byte} {c : Host.Cell} (h : c ∈ memWrite m a bs) :
    c ∈ m ∨ (a ≤ c.1 ∧ c.1 < a + bs.length) := by
  induction bs generalizing m a with
  | nil => exact .inl h
  | cons b bs ih =>
    rcases ih h with h | h
    · rcases mem_writeByte h with rfl | h
      · exact .inr (by simp)
      · exact .inl h
    · exact .inr (by simp; omega)

/-- A window that was read has every byte written, in order (20 R67). -/
theorem memRead_eq_some {m : Memory} {a n : Nat} {bs : List Byte} :
    memRead m a n = some bs ↔ bs.length = n ∧ ∀ i, i < n → readByte? m (a + i) = bs[i]? := by
  induction n generalizing a bs with
  | zero => cases bs <;> simp [memRead]
  | succ n ih =>
    constructor
    · intro h
      simp only [memRead] at h
      split at h
      · simp at h
      · next b hb =>
        split at h
        · simp at h
        · next cs hcs =>
          obtain ⟨hl, hr⟩ := ih.mp hcs
          obtain rfl : b :: cs = bs := by simpa using h
          refine ⟨by simp [hl], ?_⟩
          intro i hi
          cases i with
          | zero => simpa using hb
          | succ j =>
            have := hr j (by omega)
            rw [List.getElem?_cons_succ, ← this]
            congr 1
            omega
    · rintro ⟨hl, hr⟩
      cases bs with
      | nil => simp at hl
      | cons b bs =>
        have h0 : readByte? m a = some b := by simpa using hr 0 (by omega)
        have h1 : memRead m (a + 1) n = some bs := by
          refine ih.mpr ⟨by simpa using hl, ?_⟩
          intro i hi
          have := hr (i + 1) (by omega)
          rw [List.getElem?_cons_succ] at this
          rw [← this]
          congr 1
          omega
        simp [memRead, h0, h1]

theorem memRead_length {m : Memory} {a n : Nat} {bs : List Byte} (h : memRead m a n = some bs) : bs.length = n :=
  (memRead_eq_some.mp h).1

/-- A window read fails exactly where a byte of it was never written (20 R70). -/
theorem memRead_eq_none {m : Memory} {a n : Nat} :
    memRead m a n = none ↔ ∃ i, i < n ∧ readByte? m (a + i) = none := by
  induction n generalizing a with
  | zero => simp [memRead]
  | succ n ih =>
    simp only [memRead]
    cases h0 : readByte? m a with
    | none => exact ⟨fun _ => ⟨0, by omega, by simpa using h0⟩, fun _ => rfl⟩
    | some b =>
      cases h1 : memRead m (a + 1) n with
      | none =>
        obtain ⟨i, hi, hn⟩ := ih.mp h1
        exact ⟨fun _ => ⟨i + 1, by omega, by rw [← hn]; congr 1; omega⟩, fun _ => rfl⟩
      | some bs =>
        refine ⟨fun h => by simp at h, ?_⟩
        rintro ⟨i, hi, hn⟩
        cases i with
        | zero => simp [h0] at hn
        | succ j =>
          have : memRead m (a + 1) n = none := ih.mpr ⟨j, by omega, by rw [← hn]; congr 1; omega⟩
          simp [h1] at this

/-- What was written can be read back. -/
theorem memRead_memWrite (m : Memory) (a : Nat) (bs : List Byte) :
    memRead (memWrite m a bs) a bs.length = some bs := by
  refine memRead_eq_some.mpr ⟨rfl, fun i hi => ?_⟩
  rw [readByte?_memWrite, if_pos (by omega)]
  congr 1
  omega

end Sys2Proof.Machine
end

