-- ==== Sys2Proof/Laws/State.lean ====
section
/-! SUPPORT. One lemma per field per update of the state, each true by rfl, so that no proof unfolds a record update. -/

namespace Sys2Proof.Machine

variable (s : State)

/-! ### completeOk -/

@[simp] theorem completeOk_buf (w : CmdWrites) : (completeOk w s).buf = memWrite s.buf w.dst w.out := rfl
@[simp] theorem completeOk_snap (w : CmdWrites) : (completeOk w s).snap = s.snap := rfl
@[simp] theorem completeOk_params (w : CmdWrites) : (completeOk w s).params = s.params := rfl
@[simp] theorem completeOk_inputs (w : CmdWrites) : (completeOk w s).inputs = s.inputs := rfl
@[simp] theorem completeOk_responses (w : CmdWrites) : (completeOk w s).responses = s.responses := rfl
@[simp] theorem completeOk_resets (w : CmdWrites) : (completeOk w s).resets = s.resets := rfl
@[simp] theorem completeOk_csr_ctrl (w : CmdWrites) : (completeOk w s).csr.ctrl = s.csr.ctrl := rfl
@[simp] theorem completeOk_csr_status (w : CmdWrites) : (completeOk w s).csr.status = Status.succeeded := rfl
@[simp] theorem completeOk_csr_cmd (w : CmdWrites) : (completeOk w s).csr.cmd = s.csr.cmd := rfl
@[simp] theorem completeOk_csr_srcAddr (w : CmdWrites) : (completeOk w s).csr.srcAddr = s.csr.srcAddr := rfl
@[simp] theorem completeOk_csr_srcLen (w : CmdWrites) : (completeOk w s).csr.srcLen = s.csr.srcLen := rfl
@[simp] theorem completeOk_csr_dstAddr (w : CmdWrites) : (completeOk w s).csr.dstAddr = s.csr.dstAddr := rfl
@[simp] theorem completeOk_csr_offset (w : CmdWrites) : (completeOk w s).csr.offset = s.csr.offset := rfl
@[simp] theorem completeOk_csr_length (w : CmdWrites) : (completeOk w s).csr.length = s.csr.length := rfl
@[simp] theorem completeOk_csr_digits (w : CmdWrites) : (completeOk w s).csr.digits = s.csr.digits := rfl
@[simp] theorem completeOk_csr_counterLo (w : CmdWrites) : (completeOk w s).csr.counterLo = s.csr.counterLo := rfl
@[simp] theorem completeOk_csr_counterHi (w : CmdWrites) : (completeOk w s).csr.counterHi = s.csr.counterHi := rfl
@[simp] theorem completeOk_csr_epoch (w : CmdWrites) : (completeOk w s).csr.epoch = s.csr.epoch := rfl
@[simp] theorem completeOk_csr_step (w : CmdWrites) : (completeOk w s).csr.step = s.csr.step := rfl
@[simp] theorem completeOk_csr_nowLo (w : CmdWrites) : (completeOk w s).csr.nowLo = s.csr.nowLo := rfl
@[simp] theorem completeOk_csr_nowHi (w : CmdWrites) : (completeOk w s).csr.nowHi = s.csr.nowHi := rfl
@[simp] theorem completeOk_csr_resLen (w : CmdWrites) : (completeOk w s).csr.resLen = w.resLen.getD s.csr.resLen := rfl
@[simp] theorem completeOk_csr_resToken (w : CmdWrites) : (completeOk w s).csr.resToken = w.resToken.getD s.csr.resToken := rfl
@[simp] theorem completeOk_csr_resCntLo (w : CmdWrites) : (completeOk w s).csr.resCntLo = (w.resCnt.map (fun q => q.extractLsb' 0 32)).getD s.csr.resCntLo := rfl
@[simp] theorem completeOk_csr_resCntHi (w : CmdWrites) : (completeOk w s).csr.resCntHi = (w.resCnt.map (fun q => q.extractLsb' 32 32)).getD s.csr.resCntHi := rfl

/-! ### completeErr -/

@[simp] theorem completeErr_buf (code : ErrCode) (param : ErrParam) : (completeErr code param s).buf = s.buf := rfl
@[simp] theorem completeErr_snap (code : ErrCode) (param : ErrParam) : (completeErr code param s).snap = s.snap := rfl
@[simp] theorem completeErr_params (code : ErrCode) (param : ErrParam) : (completeErr code param s).params = s.params := rfl
@[simp] theorem completeErr_inputs (code : ErrCode) (param : ErrParam) : (completeErr code param s).inputs = s.inputs := rfl
@[simp] theorem completeErr_responses (code : ErrCode) (param : ErrParam) : (completeErr code param s).responses = s.responses := rfl
@[simp] theorem completeErr_resets (code : ErrCode) (param : ErrParam) : (completeErr code param s).resets = s.resets := rfl
@[simp] theorem completeErr_csr_ctrl (code : ErrCode) (param : ErrParam) : (completeErr code param s).csr.ctrl = s.csr.ctrl := rfl
@[simp] theorem completeErr_csr_status (code : ErrCode) (param : ErrParam) : (completeErr code param s).csr.status = Status.failed code param := rfl
@[simp] theorem completeErr_csr_cmd (code : ErrCode) (param : ErrParam) : (completeErr code param s).csr.cmd = s.csr.cmd := rfl
@[simp] theorem completeErr_csr_srcAddr (code : ErrCode) (param : ErrParam) : (completeErr code param s).csr.srcAddr = s.csr.srcAddr := rfl
@[simp] theorem completeErr_csr_srcLen (code : ErrCode) (param : ErrParam) : (completeErr code param s).csr.srcLen = s.csr.srcLen := rfl
@[simp] theorem completeErr_csr_dstAddr (code : ErrCode) (param : ErrParam) : (completeErr code param s).csr.dstAddr = s.csr.dstAddr := rfl
@[simp] theorem completeErr_csr_offset (code : ErrCode) (param : ErrParam) : (completeErr code param s).csr.offset = s.csr.offset := rfl
@[simp] theorem completeErr_csr_length (code : ErrCode) (param : ErrParam) : (completeErr code param s).csr.length = s.csr.length := rfl
@[simp] theorem completeErr_csr_digits (code : ErrCode) (param : ErrParam) : (completeErr code param s).csr.digits = s.csr.digits := rfl
@[simp] theorem completeErr_csr_counterLo (code : ErrCode) (param : ErrParam) : (completeErr code param s).csr.counterLo = s.csr.counterLo := rfl
@[simp] theorem completeErr_csr_counterHi (code : ErrCode) (param : ErrParam) : (completeErr code param s).csr.counterHi = s.csr.counterHi := rfl
@[simp] theorem completeErr_csr_epoch (code : ErrCode) (param : ErrParam) : (completeErr code param s).csr.epoch = s.csr.epoch := rfl
@[simp] theorem completeErr_csr_step (code : ErrCode) (param : ErrParam) : (completeErr code param s).csr.step = s.csr.step := rfl
@[simp] theorem completeErr_csr_nowLo (code : ErrCode) (param : ErrParam) : (completeErr code param s).csr.nowLo = s.csr.nowLo := rfl
@[simp] theorem completeErr_csr_nowHi (code : ErrCode) (param : ErrParam) : (completeErr code param s).csr.nowHi = s.csr.nowHi := rfl
@[simp] theorem completeErr_csr_resLen (code : ErrCode) (param : ErrParam) : (completeErr code param s).csr.resLen = s.csr.resLen := rfl
@[simp] theorem completeErr_csr_resToken (code : ErrCode) (param : ErrParam) : (completeErr code param s).csr.resToken = s.csr.resToken := rfl
@[simp] theorem completeErr_csr_resCntLo (code : ErrCode) (param : ErrParam) : (completeErr code param s).csr.resCntLo = s.csr.resCntLo := rfl
@[simp] theorem completeErr_csr_resCntHi (code : ErrCode) (param : ErrParam) : (completeErr code param s).csr.resCntHi = s.csr.resCntHi := rfl

/-! ### accept -/

@[simp] theorem accept_buf (w : Word) : (accept w s).buf = s.buf := rfl
@[simp] theorem accept_snap (w : Word) : (accept w s).snap = latch w s.csr := rfl
@[simp] theorem accept_params (w : Word) : (accept w s).params = s.params := rfl
@[simp] theorem accept_inputs (w : Word) : (accept w s).inputs = s.inputs := rfl
@[simp] theorem accept_responses (w : Word) : (accept w s).responses = s.responses := rfl
@[simp] theorem accept_resets (w : Word) : (accept w s).resets = s.resets := rfl
@[simp] theorem accept_csr_ctrl (w : Word) : (accept w s).csr.ctrl = s.csr.ctrl := rfl
@[simp] theorem accept_csr_status (w : Word) : (accept w s).csr.status = Status.accepted := rfl
@[simp] theorem accept_csr_cmd (w : Word) : (accept w s).csr.cmd = w &&& cmdMask := rfl
@[simp] theorem accept_csr_srcAddr (w : Word) : (accept w s).csr.srcAddr = s.csr.srcAddr := rfl
@[simp] theorem accept_csr_srcLen (w : Word) : (accept w s).csr.srcLen = s.csr.srcLen := rfl
@[simp] theorem accept_csr_dstAddr (w : Word) : (accept w s).csr.dstAddr = s.csr.dstAddr := rfl
@[simp] theorem accept_csr_offset (w : Word) : (accept w s).csr.offset = s.csr.offset := rfl
@[simp] theorem accept_csr_length (w : Word) : (accept w s).csr.length = s.csr.length := rfl
@[simp] theorem accept_csr_digits (w : Word) : (accept w s).csr.digits = s.csr.digits := rfl
@[simp] theorem accept_csr_counterLo (w : Word) : (accept w s).csr.counterLo = s.csr.counterLo := rfl
@[simp] theorem accept_csr_counterHi (w : Word) : (accept w s).csr.counterHi = s.csr.counterHi := rfl
@[simp] theorem accept_csr_epoch (w : Word) : (accept w s).csr.epoch = s.csr.epoch := rfl
@[simp] theorem accept_csr_step (w : Word) : (accept w s).csr.step = s.csr.step := rfl
@[simp] theorem accept_csr_nowLo (w : Word) : (accept w s).csr.nowLo = s.csr.nowLo := rfl
@[simp] theorem accept_csr_nowHi (w : Word) : (accept w s).csr.nowHi = s.csr.nowHi := rfl
@[simp] theorem accept_csr_resLen (w : Word) : (accept w s).csr.resLen = s.csr.resLen := rfl
@[simp] theorem accept_csr_resToken (w : Word) : (accept w s).csr.resToken = s.csr.resToken := rfl
@[simp] theorem accept_csr_resCntLo (w : Word) : (accept w s).csr.resCntLo = s.csr.resCntLo := rfl
@[simp] theorem accept_csr_resCntHi (w : Word) : (accept w s).csr.resCntHi = s.csr.resCntHi := rfl

/-! ### clearDone -/

@[simp] theorem clearDone_buf (w : Word) : (clearDone w s).buf = s.buf := rfl
@[simp] theorem clearDone_snap (w : Word) : (clearDone w s).snap = s.snap := rfl
@[simp] theorem clearDone_params (w : Word) : (clearDone w s).params = s.params := rfl
@[simp] theorem clearDone_inputs (w : Word) : (clearDone w s).inputs = s.inputs := rfl
@[simp] theorem clearDone_responses (w : Word) : (clearDone w s).responses = s.responses := rfl
@[simp] theorem clearDone_resets (w : Word) : (clearDone w s).resets = s.resets := rfl
@[simp] theorem clearDone_csr_ctrl (w : Word) : (clearDone w s).csr.ctrl = s.csr.ctrl := rfl
@[simp] theorem clearDone_csr_status (w : Word) : (clearDone w s).csr.status = s.csr.status.hostWrite w := rfl
@[simp] theorem clearDone_csr_cmd (w : Word) : (clearDone w s).csr.cmd = s.csr.cmd := rfl
@[simp] theorem clearDone_csr_srcAddr (w : Word) : (clearDone w s).csr.srcAddr = s.csr.srcAddr := rfl
@[simp] theorem clearDone_csr_srcLen (w : Word) : (clearDone w s).csr.srcLen = s.csr.srcLen := rfl
@[simp] theorem clearDone_csr_dstAddr (w : Word) : (clearDone w s).csr.dstAddr = s.csr.dstAddr := rfl
@[simp] theorem clearDone_csr_offset (w : Word) : (clearDone w s).csr.offset = s.csr.offset := rfl
@[simp] theorem clearDone_csr_length (w : Word) : (clearDone w s).csr.length = s.csr.length := rfl
@[simp] theorem clearDone_csr_digits (w : Word) : (clearDone w s).csr.digits = s.csr.digits := rfl
@[simp] theorem clearDone_csr_counterLo (w : Word) : (clearDone w s).csr.counterLo = s.csr.counterLo := rfl
@[simp] theorem clearDone_csr_counterHi (w : Word) : (clearDone w s).csr.counterHi = s.csr.counterHi := rfl
@[simp] theorem clearDone_csr_epoch (w : Word) : (clearDone w s).csr.epoch = s.csr.epoch := rfl
@[simp] theorem clearDone_csr_step (w : Word) : (clearDone w s).csr.step = s.csr.step := rfl
@[simp] theorem clearDone_csr_nowLo (w : Word) : (clearDone w s).csr.nowLo = s.csr.nowLo := rfl
@[simp] theorem clearDone_csr_nowHi (w : Word) : (clearDone w s).csr.nowHi = s.csr.nowHi := rfl
@[simp] theorem clearDone_csr_resLen (w : Word) : (clearDone w s).csr.resLen = s.csr.resLen := rfl
@[simp] theorem clearDone_csr_resToken (w : Word) : (clearDone w s).csr.resToken = s.csr.resToken := rfl
@[simp] theorem clearDone_csr_resCntLo (w : Word) : (clearDone w s).csr.resCntLo = s.csr.resCntLo := rfl
@[simp] theorem clearDone_csr_resCntHi (w : Word) : (clearDone w s).csr.resCntHi = s.csr.resCntHi := rfl

/-! ### resetBlock -/

@[simp] theorem resetBlock_csr : (resetBlock s).csr = Csr.reset := rfl
@[simp] theorem resetBlock_buf : (resetBlock s).buf = [] := rfl
@[simp] theorem resetBlock_snap : (resetBlock s).snap = Snapshot.reset := rfl
@[simp] theorem resetBlock_params : (resetBlock s).params = s.params := rfl
@[simp] theorem resetBlock_inputs : (resetBlock s).inputs = s.inputs := rfl
@[simp] theorem resetBlock_responses : (resetBlock s).responses = s.responses := rfl
@[simp] theorem resetBlock_resets : (resetBlock s).resets = s.resets + 1 := rfl

/-! ### respond -/

@[simp] theorem respond_csr (r : BusResponse) : (respond r s).csr = s.csr := rfl
@[simp] theorem respond_buf (r : BusResponse) : (respond r s).buf = s.buf := rfl
@[simp] theorem respond_snap (r : BusResponse) : (respond r s).snap = s.snap := rfl
@[simp] theorem respond_params (r : BusResponse) : (respond r s).params = s.params := rfl
@[simp] theorem respond_inputs (r : BusResponse) : (respond r s).inputs = s.inputs := rfl
@[simp] theorem respond_responses (r : BusResponse) : (respond r s).responses = r :: s.responses := rfl
@[simp] theorem respond_resets (r : BusResponse) : (respond r s).resets = s.resets := rfl

/-! ### popInput -/

@[simp] theorem popInput_csr : (s.popInput).csr = s.csr := rfl
@[simp] theorem popInput_buf : (s.popInput).buf = s.buf := rfl
@[simp] theorem popInput_snap : (s.popInput).snap = s.snap := rfl
@[simp] theorem popInput_params : (s.popInput).params = s.params := rfl
@[simp] theorem popInput_inputs : (s.popInput).inputs = s.inputs.tail := rfl
@[simp] theorem popInput_responses : (s.popInput).responses = s.responses := rfl
@[simp] theorem popInput_resets : (s.popInput).resets = s.resets := rfl

/-! ### STATUS and CTRL -/

@[simp] theorem status_accepted_busy : Status.accepted.busy = true := rfl
@[simp] theorem status_accepted_done : Status.accepted.done = false := rfl
@[simp] theorem status_accepted_err : Status.accepted.err = false := rfl
@[simp] theorem status_accepted_errcode : Status.accepted.errcode = .noError := rfl
@[simp] theorem status_accepted_errparam : Status.accepted.errparam = .noParam := rfl
@[simp] theorem status_succeeded_busy : Status.succeeded.busy = false := rfl
@[simp] theorem status_succeeded_done : Status.succeeded.done = true := rfl
@[simp] theorem status_succeeded_err : Status.succeeded.err = false := rfl
@[simp] theorem status_succeeded_errcode : Status.succeeded.errcode = .noError := rfl
@[simp] theorem status_succeeded_errparam : Status.succeeded.errparam = .noParam := rfl
@[simp] theorem status_failed_busy (c : ErrCode) (p : ErrParam) : (Status.failed c p).busy = false := rfl
@[simp] theorem status_failed_done (c : ErrCode) (p : ErrParam) : (Status.failed c p).done = true := rfl
@[simp] theorem status_failed_err (c : ErrCode) (p : ErrParam) : (Status.failed c p).err = true := rfl
@[simp] theorem status_failed_errcode (c : ErrCode) (p : ErrParam) : (Status.failed c p).errcode = c := rfl
@[simp] theorem status_failed_errparam (c : ErrCode) (p : ErrParam) : (Status.failed c p).errparam = p := rfl
@[simp] theorem status_hostWrite_busy (w : Word) (t : Status) : (t.hostWrite w).busy = t.busy := rfl
@[simp] theorem status_hostWrite_done (w : Word) (t : Status) : (t.hostWrite w).done = (t.done && !w.getLsbD 1) := rfl
@[simp] theorem status_hostWrite_err (w : Word) (t : Status) : (t.hostWrite w).err = t.err := rfl
@[simp] theorem status_hostWrite_errcode (w : Word) (t : Status) : (t.hostWrite w).errcode = t.errcode := rfl
@[simp] theorem status_hostWrite_errparam (w : Word) (t : Status) : (t.hostWrite w).errparam = t.errparam := rfl

/-! ### The input lists of the model -/

@[simp] theorem withFetchWord_inputs (nbits w : Nat) : (s.withFetchWord nbits w).inputs = .core :: s.inputs := rfl
@[simp] theorem withFetchWord_snap (nbits w : Nat) :
    (s.withFetchWord nbits w).snap = latch (tableWord nbits w) s.csr := rfl
@[simp] theorem withFetchWord_status (nbits w : Nat) : (s.withFetchWord nbits w).csr.status = Status.accepted := rfl

end Sys2Proof.Machine
end

