-- ==== Sys2Proof/Laws/Ops.lean ====
section
/-! SUPPORT. One lemma per shared operation that says once everything it can do; later proofs cite these instead of
unfolding the operations. -/

namespace Sys2Proof.Machine

/-! ### Completion -/

theorem complete_ok (w : CmdWrites) (s : State) : complete (.ok w) s = .next (completeOk w s) := rfl

theorem complete_err (c : ErrCode) (p : ErrParam) (s : State) :
    complete (.err c p) s = .next (completeErr c p s) := rfl

theorem complete_noResult (f : Fault) (s : State) : complete (.noResult f) s = .fault f := rfl

/-- Everything a completion that answers next can have done (10 R43). -/
theorem complete_eq_next {o : CmdOutcome} {s t : State} :
    complete o s = .next t ↔
      (∃ w, o = .ok w ∧ t = completeOk w s) ∨ (∃ c p, o = .err c p ∧ t = completeErr c p s) := by
  cases o with
  | ok w => simp [complete, eq_comm]
  | err c p =>
    simp only [complete, Host.Outcome.next.injEq, CmdOutcome.err.injEq, reduceCtorEq, false_and, exists_false, false_or]
    exact ⟨fun h => ⟨c, p, ⟨rfl, rfl⟩, h.symm⟩, fun ⟨_, _, ⟨h1, h2⟩, h⟩ => by subst h1 h2; exact h.symm⟩
  | noResult f => simp [complete]

/-- A completion faults exactly where the command has no result (20 R70). -/
theorem complete_eq_fault {o : CmdOutcome} {s : State} {f : Fault} :
    complete o s = .fault f ↔ o = .noResult f := by
  cases o <;> simp [complete]

theorem complete_ne_refused {o : CmdOutcome} {s : State} {r : Refusal} : complete o s ≠ .refused r := by
  cases o <;> simp [complete]

/-! ### exec as a completion -/

/-- The command function of an instruction (10 R43: "The outcome therefore depends only on S and the BUF bytes read"). -/
def commandOutcome (i : Instr) (S : Snapshot) (bufBytes : Nat) (buf : Memory) : CmdOutcome :=
  match i with
  | .b32dec nullIn _   => b32decCommand nullIn S bufBytes buf
  | .b32enc nullIn pad => b32encCommand nullIn pad S bufBytes buf
  | .hotpgen nullIn _  => hotpgenCommand nullIn S bufBytes buf
  | .totpcnt _ _       => totpcntCommand S
  | .illegal0 _ _      => illegalCommand
  | .illegal5 _ _      => illegalCommand
  | .illegal6 _ _      => illegalCommand
  | .illegal7 _ _      => illegalCommand
  | .illegal8 _ _      => illegalCommand
  | .illegal9 _ _      => illegalCommand
  | .illegalA _ _      => illegalCommand
  | .illegalB _ _      => illegalCommand
  | .illegalC _ _      => illegalCommand
  | .illegalD _ _      => illegalCommand
  | .illegalE _ _      => illegalCommand
  | .illegalF _ _      => illegalCommand

theorem exec_eq_complete (i : Instr) (s : State) :
    exec i s = complete (commandOutcome i s.snap s.params.bufBytes s.buf) s := by
  cases i <;> rfl

/-! ### The command functions, by outcome -/

/-- What B32DEC has found when it succeeds, and what it writes (40 R125). -/
theorem b32decCommand_ok {n : Bool} {S : Snapshot} {N : Nat} {m : Memory} {w : CmdWrites}
    (h : b32decCommand n S N m = .ok w) :
    n = false ∧ InBuf N (u32 S.srcAddr) (u32 S.srcLen) ∧
      ∃ text vals, memRead m (u32 S.srcAddr) (u32 S.srcLen) = some text ∧
        textValues S.aliasEn (trim text) = some vals ∧
        InBuf N (u32 S.dstAddr) (decodedLength vals.length) ∧
        w = { dst := u32 S.dstAddr, out := repack5to8 vals,
              resLen := some (BitVec.ofNat 32 (decodedLength vals.length)), resToken := none, resCnt := none } := by
  unfold b32decCommand at h
  split at h
  · cases h
  · next hn =>
    split at h
    · cases h
    · next hs =>
      split at h
      · cases h
      · next text ht =>
        split at h
        · cases h
        · next vals hv =>
          split at h
          · cases h
          · next hd =>
            exact ⟨by simpa using hn, not_not.mp hs, text, vals, ht, hv, not_not.mp hd, by cases h; rfl⟩

/-- What B32ENC has found when it succeeds, and what it writes (40 R130). -/
theorem b32encCommand_ok {n p : Bool} {S : Snapshot} {N : Nat} {m : Memory} {w : CmdWrites}
    (h : b32encCommand n p S N m = .ok w) :
    n = false ∧ 0 ≤ s32 S.offset ∧ 0 ≤ s32 S.length ∧ s32 S.offset + s32 S.length ≤ (u32 S.srcLen : Int) ∧
      s32 S.length < 2 ^ 28 ∧ InBuf N (u32 S.srcAddr) (u32 S.srcLen) ∧
      InBuf N (u32 S.dstAddr)
        (encodedLength (s32 S.length).toNat + padCount p (encodedLength (s32 S.length).toNat)) ∧
      ∃ d, memRead m (u32 S.srcAddr + (s32 S.offset).toNat) (s32 S.length).toNat = some d ∧
        w = { dst := u32 S.dstAddr, out := encodeText p d,
              resLen := some (BitVec.ofNat 32
                (encodedLength (s32 S.length).toNat + padCount p (encodedLength (s32 S.length).toNat))),
              resToken := none, resCnt := none } := by
  unfold b32encCommand at h
  split at h
  · cases h
  · next hn =>
    split at h
    · cases h
    · next h1 =>
      split at h
      · cases h
      · next h2 =>
        split at h
        · cases h
        · next h3 =>
          split at h
          · cases h
          · next h4 =>
            split at h
            · cases h
            · next h5 =>
              dsimp only at h
              split at h
              · cases h
              · next h6 =>
                split at h
                · cases h
                · next d hd =>
                  exact ⟨by simpa using hn, not_lt.mp h1, not_lt.mp h2, not_lt.mp h3, not_le.mp h4,
                    not_not.mp h5, not_not.mp h6, d, hd, by cases h; rfl⟩

/-- What HOTPGEN has found when it succeeds, and what it writes (41 R160). -/
theorem hotpgenCommand_ok {n : Bool} {S : Snapshot} {N : Nat} {m : Memory} {w : CmdWrites}
    (h : hotpgenCommand n S N m = .ok w) :
    n = false ∧ 0 ≤ s64 S.counter ∧ u32 S.srcLen ≠ 0 ∧ 1 ≤ s32 S.digits ∧ s32 S.digits ≤ 10 ∧
      InBuf N (u32 S.srcAddr) (u32 S.srcLen) ∧ InBuf N (u32 S.dstAddr) (s32 S.digits).toNat ∧
      ∃ key, memRead m (u32 S.srcAddr) (u32 S.srcLen) = some key ∧
        w = { dst := u32 S.dstAddr,
              out := decimalText (hotpToken key S.counter (s32 S.digits).toNat) (s32 S.digits).toNat,
              resLen := some (BitVec.ofNat 32 (s32 S.digits).toNat),
              resToken := some (BitVec.ofNat 32 (hotpToken key S.counter (s32 S.digits).toNat)),
              resCnt := none } := by
  unfold hotpgenCommand at h
  split at h
  · cases h
  · next hn =>
    split at h
    · cases h
    · next h1 =>
      split at h
      · cases h
      · next h2 =>
        split at h
        · cases h
        · next h3 =>
          split at h
          · cases h
          · next h4 =>
            split at h
            · cases h
            · next h5 =>
              split at h
              · cases h
              · next key hk =>
                have h3' := not_or.mp h3
                exact ⟨by simpa using hn, not_lt.mp h1, h2, not_lt.mp h3'.1, not_lt.mp h3'.2, not_not.mp h4,
                  not_not.mp h5, key, hk, by cases h; rfl⟩

/-- What TOTPCNT has found when it succeeds, and what it writes (41 R165). -/
theorem totpcntCommand_ok {S : Snapshot} {w : CmdWrites} (h : totpcntCommand S = .ok w) :
    0 < s32 S.step ∧
      w = { dst := 0, out := [], resLen := none, resToken := none,
            resCnt := some (BitVec.ofInt 64 (stepCounter (s64 S.now) (s32 S.epoch) (s32 S.step))) } := by
  unfold totpcntCommand at h
  split at h
  · cases h
  · next hs => exact ⟨not_le.mp hs, by cases h; rfl⟩

/-- Every error a command reports pairs a code with a parameter that 60 R191 uses with it. -/
theorem commandOutcome_err {i : Instr} {S : Snapshot} {N : Nat} {m : Memory} {c : ErrCode} {p : ErrParam}
    (h : commandOutcome i S N m = .err c p) : c ≠ .noError ∧ p.usedWith c = true := by
  cases i <;> simp only [commandOutcome, b32decCommand, b32encCommand, hotpgenCommand, totpcntCommand,
    illegalCommand] at h
  all_goals (repeat' (split at h)) <;> cases h <;> exact ⟨by decide, by decide⟩

/-- The only model fault a command raises is the unwritten byte (20 R70). -/
theorem commandOutcome_noResult {i : Instr} {S : Snapshot} {N : Nat} {m : Memory} {f : Fault}
    (h : commandOutcome i S N m = .noResult f) : f = .unwrittenBufByte := by
  cases i <;> simp only [commandOutcome, b32decCommand, b32encCommand, hotpgenCommand, totpcntCommand,
    illegalCommand] at h
  all_goals (repeat' (split at h)) <;> first | (cases h; done) | (cases h; rfl)

/-! ### Host accesses -/

/-- A Host access answers next exactly where the platform admits it (60 R209). -/
theorem hostAccess_eq_next {a : Access} {s t : State} :
    hostAccess a s = .next t ↔ a.fitsBus = true ∧ a.routed s.params = true ∧ t = accessWindow a s := by
  unfold hostAccess
  split
  · next h => simp [h]
  · split
    · next h => simp [h]
    · next h1 h2 => simp [h1, h2, eq_comm]

theorem hostAccess_ne_refused {a : Access} {s : State} {r : Refusal} : hostAccess a s ≠ .refused r := by
  unfold hostAccess
  split
  · simp
  · split <;> simp

/-- Everything a register write can do (10 R22, R24 to R26, R44). -/
theorem csrWrite_cases (r : Reg) (w : Word) (s : State) :
    csrWrite r w s = s ∨
      (r = .ctrl ∧ csrWrite r w s = { s with csr := { s.csr with ctrl := Ctrl.ofWord w } }) ∨
      (r = .status ∧ csrWrite r w s = clearDone w s) ∨
      (r = .cmd ∧ s.csr.status.busy = false ∧ csrWrite r w s = accept w s) ∨
      (s.csr.status.busy = false ∧ csrWrite r w s = { s with csr := operandWrite w s.csr r }) := by
  cases hb : s.csr.status.busy <;> cases r <;> simp [csrWrite, hb]

/-- An access that is not allowed: the error response, read data 0, no state change (20 R63). -/
theorem window_error {off : Nat} {width : Width} {s : State}
    (h : accessOk (regionOf s.params.bufBytes off) width off = false) (data : Word) :
    windowRead off width s = .readError 0#32 ∧ windowWrite off width data s = (s, .writeError) := by
  simp [windowRead, windowWrite, h]

/-- An access that is allowed gets an OK response (20 R63). -/
theorem window_ok {off : Nat} {width : Width} {s : State}
    (h : accessOk (regionOf s.params.bufBytes off) width off = true) (data : Word) :
    (∃ d, windowRead off width s = .readOk d) ∧ (windowWrite off width data s).2 = .writeOk := by
  simp only [windowRead, windowWrite, h, if_true]
  constructor
  · split
    · split <;> exact ⟨_, rfl⟩
    · exact ⟨_, rfl⟩
    · split <;> exact ⟨_, rfl⟩
  · split
    · split <;> rfl
    · rfl
    · split <;> rfl

/-- Everything a window write can do: nothing, a register write, or a write of BUF bytes while IDLE (20 R60 to R64). -/
theorem windowWrite_cases (off : Nat) (width : Width) (data : Word) (s : State) :
    (windowWrite off width data s).1 = s ∨
      (∃ r, regAt off = some r ∧ width = .w32 ∧ (windowWrite off width data s).1 = csrWrite r data s) ∨
      (∃ i, regionOf s.params.bufBytes off = .buf i ∧ off % widthBytes width = 0 ∧ s.csr.status.busy = false ∧
        (windowWrite off width data s).1 =
          { s with buf := memWrite s.buf i (lanesOfWord data (widthBytes width)) }) := by
  unfold windowWrite
  dsimp only
  split
  · next hok =>
    split
    · next hg =>
      simp only [hg, accessOk, Bool.and_eq_true, decide_eq_true_eq] at hok
      split
      · next r hr => exact .inr (.inl ⟨r, hr, hok.1, rfl⟩)
      · exact .inl rfl
    · exact .inl rfl
    · next i hg =>
      simp only [hg, accessOk, decide_eq_true_eq] at hok
      split
      · exact .inl rfl
      · next hb => exact .inr (.inr ⟨i, hg, hok, by simpa using hb, rfl⟩)
  · exact .inl rfl

@[simp] theorem length_lanesOfWord (w : Word) (n : Nat) : (lanesOfWord w n).length = n := by
  induction n generalizing w with
  | zero => rfl
  | succ n ih => simp [lanesOfWord, ih]

/-- BUF_BYTES is a multiple of 4, at least 256 and at most 65536 (00 R7). -/
theorem bufBytes_facts (p : Params) : p.bufBytes % 4 = 0 ∧ 256 ≤ p.bufBytes ∧ p.bufBytes ≤ 65536 := by
  obtain ⟨⟨k, hk⟩, b⟩ := p
  simp only [Params.bufBytes]
  interval_cases k <;> decide

/-! ### The step -/

theorem coreTurn_busy {s : State} (h : s.csr.status.busy = true) : coreTurn s = exec s.snap.command s := by
  simp [coreTurn, h]

theorem coreTurn_idle {s : State} (h : s.csr.status.busy = false) : coreTurn s = .next s := by
  simp [coreTurn, h]

/-- Everything a step that answers next can have been (10 R43, 20 R71, 70 R220). -/
theorem step_cases {s t : State} (h : step s = .next t) :
    (s.inputs = [] ∧ coreTurn s = .next t) ∨
      (∃ rest, s.inputs = .core :: rest ∧ coreTurn s.popInput = .next t) ∨
      (∃ rest, s.inputs = .reset :: rest ∧ t = resetBlock s.popInput) ∨
      (∃ a rest, s.inputs = .host a :: rest ∧ hostAccess a s.popInput = .next t) := by
  unfold step at h
  split at h
  · next hi => exact .inl ⟨hi, h⟩
  · next rest hi => exact .inr (.inl ⟨rest, hi, h⟩)
  · next rest hi =>
    cases h
    exact .inr (.inr (.inl ⟨rest, hi, rfl⟩))
  · next a rest hi => exact .inr (.inr (.inr ⟨a, rest, hi, h⟩))

end Sys2Proof.Machine
end

