-- ==== Sys2Proof/Laws/PerInstr.lean ====
section
/-! SUPPORT. Statements about every command as syntax, one lemma per constructor. -/

namespace Sys2Proof.Laws.CommandWord

/-- The command word of a command: it uses no reserved bit (30 R90, R94), and PAD and NULL_IN stand at bits 8 and 9, so
that clearing the two flags leaves the opcode alone. -/
def Statement (i : Instr) : Prop :=
  i.wellFormed = true ∧ encode i &&& cmdMask = encode i ∧
    encode i = (encode i &&& 0xF#32) ||| flagBits (nullInOf (encode i)) (padOf (encode i))

theorem b32dec (nullIn pad : Bool) : Statement (.b32dec nullIn pad) := by
  cases nullIn <;> cases pad <;> exact ⟨rfl, rfl, rfl⟩

theorem b32enc (nullIn pad : Bool) : Statement (.b32enc nullIn pad) := by
  cases nullIn <;> cases pad <;> exact ⟨rfl, rfl, rfl⟩

theorem hotpgen (nullIn pad : Bool) : Statement (.hotpgen nullIn pad) := by
  cases nullIn <;> cases pad <;> exact ⟨rfl, rfl, rfl⟩

theorem totpcnt (nullIn pad : Bool) : Statement (.totpcnt nullIn pad) := by
  cases nullIn <;> cases pad <;> exact ⟨rfl, rfl, rfl⟩

theorem illegal0 (nullIn pad : Bool) : Statement (.illegal0 nullIn pad) := by
  cases nullIn <;> cases pad <;> exact ⟨rfl, rfl, rfl⟩

theorem illegal5 (nullIn pad : Bool) : Statement (.illegal5 nullIn pad) := by
  cases nullIn <;> cases pad <;> exact ⟨rfl, rfl, rfl⟩

theorem illegal6 (nullIn pad : Bool) : Statement (.illegal6 nullIn pad) := by
  cases nullIn <;> cases pad <;> exact ⟨rfl, rfl, rfl⟩

theorem illegal7 (nullIn pad : Bool) : Statement (.illegal7 nullIn pad) := by
  cases nullIn <;> cases pad <;> exact ⟨rfl, rfl, rfl⟩

theorem illegal8 (nullIn pad : Bool) : Statement (.illegal8 nullIn pad) := by
  cases nullIn <;> cases pad <;> exact ⟨rfl, rfl, rfl⟩

theorem illegal9 (nullIn pad : Bool) : Statement (.illegal9 nullIn pad) := by
  cases nullIn <;> cases pad <;> exact ⟨rfl, rfl, rfl⟩

theorem illegalA (nullIn pad : Bool) : Statement (.illegalA nullIn pad) := by
  cases nullIn <;> cases pad <;> exact ⟨rfl, rfl, rfl⟩

theorem illegalB (nullIn pad : Bool) : Statement (.illegalB nullIn pad) := by
  cases nullIn <;> cases pad <;> exact ⟨rfl, rfl, rfl⟩

theorem illegalC (nullIn pad : Bool) : Statement (.illegalC nullIn pad) := by
  cases nullIn <;> cases pad <;> exact ⟨rfl, rfl, rfl⟩

theorem illegalD (nullIn pad : Bool) : Statement (.illegalD nullIn pad) := by
  cases nullIn <;> cases pad <;> exact ⟨rfl, rfl, rfl⟩

theorem illegalE (nullIn pad : Bool) : Statement (.illegalE nullIn pad) := by
  cases nullIn <;> cases pad <;> exact ⟨rfl, rfl, rfl⟩

theorem illegalF (nullIn pad : Bool) : Statement (.illegalF nullIn pad) := by
  cases nullIn <;> cases pad <;> exact ⟨rfl, rfl, rfl⟩

end Sys2Proof.Laws.CommandWord
end

