-- ==== Sys2Proof/Laws/Run.lean ====
section
/-! SUPPORT. Runs of a machine behind the host's interface, one step at a time. -/

namespace Sys2Proof.Machine

/-- A run of any machine goes on from where its first step leads. -/
theorem coreRun_succ (M : Host.Core) {s t : M.State} (k : Nat) (h : M.step s = .next t) :
    M.run (k + 1) s = M.run k t := by
  rw [Host.Core.run, h]

/-- A run of one step of any machine is that step. -/
theorem coreRun_one (M : Host.Core) (s : M.State) : M.run 1 s = M.step s := by
  rw [Host.Core.run]
  cases M.step s <;> rfl

/-- A run of the block goes on from where its first step leads. -/
theorem run_succ_of_next {s t : State} (k : Nat) (h : step s = .next t) :
    Host.Core.run Sys2Proof.core (k + 1) s = Host.Core.run Sys2Proof.core k t :=
  coreRun_succ Sys2Proof.core k h

/-- A run of one step of the block is that step. -/
theorem run_one (s : State) : Host.Core.run Sys2Proof.core 1 s = step s :=
  coreRun_one Sys2Proof.core s

end Sys2Proof.Machine
end

