-- ==== Sys2Proof/Laws/Sha1.lean ====
section
/-! SUPPORT. Big-endian byte lists, pieces of a list, and the padded message (00 R11, 41 R171). -/

namespace Sys2Proof.Machine

@[simp] theorem length_beBytes (n v : Nat) : (beBytes n v).length = n := by
  induction n with
  | zero => rfl
  | succ n ih => simp [beBytes, ih]

@[simp] theorem length_pieces {α : Type} (k n : Nat) (l : List α) : (pieces k n l).length = n := by
  induction n generalizing l with
  | zero => rfl
  | succ n ih => simp [pieces, ih]

/-- Piece t of a list is its k elements from place k * t on. -/
theorem getElem?_pieces {α : Type} {n t : Nat} (k : Nat) (l : List α) (h : t < n) :
    (pieces k n l)[t]? = some ((l.drop (k * t)).take k) := by
  induction n generalizing l t with
  | zero => omega
  | succ n ih =>
    cases t with
    | zero => simp [pieces]
    | succ t =>
      rw [pieces, List.getElem?_cons_succ, ih _ (by omega), List.drop_drop, Nat.mul_succ, Nat.add_comm]

/-- The four big-endian bytes of a word are its bytes from the top (41 R175). -/
theorem beBytes_word (w : Word) :
    beBytes 4 w.toNat = [w.extractLsb' 24 8, w.extractLsb' 16 8, w.extractLsb' 8 8, w.extractLsb' 0 8] := by
  simp [beBytes, BitVec.extractLsb', Nat.shiftRight_eq_div_pow]

@[simp] theorem length_sha1BlockWords (block : List Byte) : (sha1BlockWords block).length = 16 := by
  simp [sha1BlockWords]

end Sys2Proof.Machine
end

