-- ==== Sys2Proof/Tests/Slice0.lean ====
section
/-! SUPPORT. The model's own tests: expected values are those of 95_test_vectors.md (T, E, EE, D, DE and the STATUS
constants) or written out from the rule a docstring names; and, for every obligation with hypotheses, a witness that meets
them. -/

namespace Sys2Proof.Tests

open Sys2Proof Sys2Proof.Machine

/-! ### Helpers -/

/-- A value read off the next state, or none where the machine stopped. -/
def after {α : Type} (f : State → α) : Host.Outcome State Fault Refusal → Option α
  | .next t    => some (f t)
  | .fault _   => none
  | .refused _ => none

/-- STATUS of a state, as the Host reads it. -/
def statusOf (s : State) : Word := s.csr.status.word

/-- The reset state with bytes in BUF from index a on. -/
def withBytes (a : Nat) (bs : List Byte) : State := { State.reset with buf := memWrite [] a bs }

/-- A state whose registers were changed by f, with the word w accepted. -/
def issued (w : Word) (f : Csr → Csr) (s : State) : State := accept w { s with csr := f s.csr }

/-- "foobar" at BUF[0..6), SRC_LEN 6, LENGTH 6, DST_ADDR 256. -/
def foobar (w : Word) (f : Csr → Csr) : State :=
  issued w (fun c => f { c with srcLen := 6#32, length := 6#32, dstAddr := 256#32 })
    (withBytes 0 [0x66#8, 0x6F#8, 0x6F#8, 0x62#8, 0x61#8, 0x72#8])

/-- "MZXW6YTBOI" at BUF[0..10), SRC_LEN 10, DST_ADDR 256. -/
def mzxw (f : Csr → Csr) : State :=
  issued 0x1#32 (fun c => f { c with srcLen := 10#32, dstAddr := 256#32 })
    (withBytes 0 [0x4D#8, 0x5A#8, 0x58#8, 0x57#8, 0x36#8, 0x59#8, 0x54#8, 0x42#8, 0x4F#8, 0x49#8])

/-- T6's key at BUF[0..20), SRC_LEN 20, DST_ADDR 256, DIGITS 6 from reset. -/
def rfcKey (f : Csr → Csr) : State :=
  issued 0x3#32 (fun c => f { c with srcLen := 20#32, dstAddr := 256#32 })
    (withBytes 0 [0x31#8, 0x32#8, 0x33#8, 0x34#8, 0x35#8, 0x36#8, 0x37#8, 0x38#8, 0x39#8, 0x30#8, 0x31#8, 0x32#8, 0x33#8, 0x34#8, 0x35#8, 0x36#8, 0x37#8, 0x38#8, 0x39#8, 0x30#8])

/-- TOTPCNT with NOW = now and the reset values EPOCH 0, STEP 30. -/
def totp (nowHi nowLo : Word) (f : Csr → Csr) : State :=
  issued 0x4#32 (fun c => f { c with nowHi := nowHi, nowLo := nowLo }) State.reset

/-- A word whose OPCODE has no command, accepted in the reset state. -/
def illegal (w : Word) : State := accept w State.reset

/-! ### Well-formedness: one ill-formed term for each check -/

/-- 20 R60: below BLOCK_BASE (here 0x20000) the access is not routed. -/
theorem test_wf_below_window :
    Access.wellFormed { bufSel := 4, baseIndex := 1 } (.read 0x1FFFC .w32) = false := by decide

/-- 20 R60: the window is 128 KiB. -/
theorem test_wf_above_window : Access.wellFormed Params.default (.write 0x20000 .w8 0#32) = false := by decide

/-- 93 U9: no access is wider than 32 bits. -/
theorem test_wf_too_wide : Access.wellFormed Params.default (.read 0x10000 .wider) = false := by decide

theorem test_wf_input : Input.wellFormed Params.default (.host (.read 0x20000 .w8)) = false := by decide

theorem test_wf_good : Access.wellFormed Params.default (.write 0x1FFFF .w8 0#32) = true ∧
    Input.wellFormed Params.default .reset = true ∧ Input.wellFormed Params.default .core = true := by decide

/-- 30 R90, R94: every command word is well formed. -/
theorem test_wf_instr : Instr.wellFormed (.illegal5 true true) = true ∧ Instr.wellFormed (.b32enc false true) = true := by
  decide

/-! ### Decoding: words written bit by bit (OPCODE [3:0], PAD [8], NULL_IN [9]; 30 R90, R91) -/

theorem test_decode_named :
    decodeWord 0b00000000000000000000000000000001#32 = .b32dec false false ∧
    decodeWord 0b00000000000000000000000100000010#32 = .b32enc false true ∧
    decodeWord 0b00000000000000000000001000000011#32 = .hotpgen true false ∧
    decodeWord 0b00000000000000000000001100000100#32 = .totpcnt true true := by decide

theorem test_decode_no_command :
    decodeWord 0b00000000000000000000000000000000#32 = .illegal0 false false ∧
    decodeWord 0b00000000000000000000000100000101#32 = .illegal5 false true ∧
    decodeWord 0b00000000000000000000001000000110#32 = .illegal6 true false ∧
    decodeWord 0b00000000000000000000000000000111#32 = .illegal7 false false ∧
    decodeWord 0b00000000000000000000000000001000#32 = .illegal8 false false ∧
    decodeWord 0b00000000000000000000000000001001#32 = .illegal9 false false ∧
    decodeWord 0b00000000000000000000000000001010#32 = .illegalA false false ∧
    decodeWord 0b00000000000000000000000000001011#32 = .illegalB false false ∧
    decodeWord 0b00000000000000000000000000001100#32 = .illegalC false false ∧
    decodeWord 0b00000000000000000000000000001101#32 = .illegalD false false ∧
    decodeWord 0b00000000000000000000000000001110#32 = .illegalE false false ∧
    decodeWord 0b00000000000000000000001100001111#32 = .illegalF true true := by decide

/-- 30 R94: bits [7:4] and [31:10] are ignored. -/
theorem test_decode_reserved_bits : decodeWord 0b11111111111111111111110011110001#32 = .b32dec false false := by decide

/-- 20 R62: the low byte lane first; 30 R95: four bytes, the rest left over. -/
theorem test_decode_bytes :
    decode [0x02#8, 0x01#8, 0x00#8, 0x00#8, 0x7F#8] = .ok (.b32enc false true, [0x7F#8]) := by rfl

theorem test_decode_truncated : decode [0x02#8, 0x01#8, 0x00#8] = .error .truncated := by rfl

theorem test_decode_table_word : decodeTableWord 32 0x303 = some (.hotpgen true true) := by decide

/-- The next step after withFetchWord runs the command: HOTPGEN at reset has an empty key (0x736). -/
theorem test_fetch_word :
    after statusOf (step (State.reset.withFetchWord 32 0x3)) = some 0x736#32 := by decide

/-! ### Commands -/

/-- T1: "MZXW6YTBOI" decodes to "foobar". -/
theorem test_b32dec_foobar :
    after (fun t => (statusOf t, t.csr.resLen, memRead t.buf 256 6)) (exec (.b32dec false false) (mzxw id)) =
      some (0x2#32, 6#32, some [0x66#8, 0x6F#8, 0x6F#8, 0x62#8, 0x61#8, 0x72#8]) := by decide

/-- D17: the output may overwrite the input; BUF[6..10) keeps "TBOI". -/
theorem test_b32dec_in_place :
    after (fun t => memRead t.buf 0 10) (exec (.b32dec false false) (mzxw (fun c => { c with dstAddr := 0#32 }))) =
      some (some [0x66#8, 0x6F#8, 0x6F#8, 0x62#8, 0x61#8, 0x72#8, 0x54#8, 0x42#8, 0x4F#8, 0x49#8]) := by decide

/-- T1 with PAD, 95 E7: "foobar" encodes to "MZXW6YTBOI======". -/
theorem test_b32enc_foobar :
    after (fun t => (statusOf t, t.csr.resLen, memRead t.buf 256 16)) (exec (.b32enc false true) (foobar 0x102#32 id)) =
      some (0x2#32, 16#32, some [0x4D#8, 0x5A#8, 0x58#8, 0x57#8, 0x36#8, 0x59#8, 0x54#8, 0x42#8, 0x4F#8, 0x49#8, 0x3D#8, 0x3D#8, 0x3D#8, 0x3D#8, 0x3D#8, 0x3D#8]) := by decide

/-- E14: OFFSET 3, LENGTH 3 encodes "bar". -/
theorem test_b32enc_sub_range :
    after (fun t => (t.csr.resLen, memRead t.buf 256 5))
      (exec (.b32enc false false) (foobar 0x2#32 (fun c => { c with offset := 3#32, length := 3#32 }))) =
      some (5#32, some [0x4D#8, 0x4A#8, 0x51#8, 0x58#8, 0x45#8]) := by decide

/-- T6, counter 0: 755224. -/
theorem test_hotpgen_counter0 :
    after (fun t => (statusOf t, t.csr.resToken, memRead t.buf 256 6)) (exec (.hotpgen false false) (rfcKey id)) =
      some (0x2#32, 755224#32, some [0x37#8, 0x35#8, 0x35#8, 0x32#8, 0x32#8, 0x34#8]) := by decide +kernel

/-- T7: ten digits of counter 0. -/
theorem test_hotpgen_ten_digits :
    after (fun t => (t.csr.resLen, memRead t.buf 256 10))
      (exec (.hotpgen false false) (rfcKey (fun c => { c with digits := 10#32 }))) =
      some (10#32, some [0x31#8, 0x32#8, 0x38#8, 0x34#8, 0x37#8, 0x35#8, 0x35#8, 0x32#8, 0x32#8, 0x34#8]) := by decide +kernel

/-- T8, 41 R165: NOW 59 is in step 1. -/
theorem test_totpcnt_59 :
    after (fun t => (statusOf t, t.csr.resCntHi, t.csr.resCntLo)) (exec (.totpcnt false false) (totp 0#32 59#32 id)) =
      some (0x2#32, 0#32, 1#32) := by decide

/-- T8, 41 R166: -31 divided by 30 truncates to -1, where floor division would give -2. -/
theorem test_totpcnt_negative :
    after (fun t => (t.csr.resCntHi, t.csr.resCntLo))
      (exec (.totpcnt false false) (totp 0xFFFFFFFF#32 0xFFFFFFE1#32 id)) =
      some (0xFFFFFFFF#32, 0xFFFFFFFF#32) := by decide

/-- T18: every opcode with no command ends with STATUS 0xC56. -/
theorem test_illegal_status :
    after statusOf (exec (.illegal0 false false) (illegal 0x0#32)) = some 0xC56#32 ∧
    after statusOf (exec (.illegal5 false false) (illegal 0x5#32)) = some 0xC56#32 ∧
    after statusOf (exec (.illegal6 false false) (illegal 0x6#32)) = some 0xC56#32 ∧
    after statusOf (exec (.illegal7 false false) (illegal 0x7#32)) = some 0xC56#32 ∧
    after statusOf (exec (.illegal8 false false) (illegal 0x8#32)) = some 0xC56#32 ∧
    after statusOf (exec (.illegal9 false false) (illegal 0x9#32)) = some 0xC56#32 ∧
    after statusOf (exec (.illegalA false false) (illegal 0xA#32)) = some 0xC56#32 ∧
    after statusOf (exec (.illegalB false false) (illegal 0xB#32)) = some 0xC56#32 ∧
    after statusOf (exec (.illegalC false false) (illegal 0xC#32)) = some 0xC56#32 ∧
    after statusOf (exec (.illegalD false false) (illegal 0xD#32)) = some 0xC56#32 ∧
    after statusOf (exec (.illegalE false false) (illegal 0xE#32)) = some 0xC56#32 ∧
    after statusOf (exec (.illegalF false false) (illegal 0xF#32)) = some 0xC56#32 := by decide

/-! ### Errors (95, EE and DE) -/

/-- EE1, EE2, EE4, EE5, EE6, EE7: the order of B32ENC's checks. -/
theorem test_b32enc_errors :
    after statusOf (exec (.b32enc false false) (foobar 0x2#32 (fun c => { c with offset := 0xFFFFFFFF#32 }))) =
      some 0x236#32 ∧
    after statusOf (exec (.b32enc false false) (foobar 0x2#32 (fun c => { c with length := 0xFFFFFFFF#32 }))) =
      some 0x336#32 ∧
    after statusOf (exec (.b32enc false false) (foobar 0x2#32 (fun c => { c with offset := 4#32, length := 3#32 }))) =
      some 0x436#32 ∧
    after statusOf (exec (.b32enc false false)
      (foobar 0x2#32 (fun c => { c with srcLen := 0x10000000#32, length := 0x10000000#32 }))) = some 0x536#32 ∧
    after statusOf (exec (.b32enc false false)
      (foobar 0x2#32 (fun c => { c with srcLen := 0x10000000#32, length := 0x0FFFFFFF#32 }))) = some 0xA46#32 := by
  decide

/-- DE3: "MZ ==" keeps its inner space, which is no character of the alphabet. -/
theorem test_b32dec_inner_space :
    after statusOf (exec (.b32dec false false)
      (issued 0x1#32 (fun c => { c with srcLen := 5#32 }) (withBytes 0 [0x4D#8, 0x5A#8, 0x20#8, 0x3D#8, 0x3D#8]))) = some 0x126#32 := by decide

/-- 20 R70, 93 U6: a command that reads a byte nothing has written is a model fault. -/
theorem test_unwritten_input :
    exec (.b32dec false false) (issued 0x1#32 (fun c => { c with srcLen := 1#32 }) State.reset) =
      .fault .unwrittenBufByte := by rfl

/-- 41 R170: HMAC-SHA1 of T6's key and the message of counter 0, from the table of T6. -/
theorem test_hmac_digest :
    hmacSha1 [0x31#8, 0x32#8, 0x33#8, 0x34#8, 0x35#8, 0x36#8, 0x37#8, 0x38#8, 0x39#8, 0x30#8, 0x31#8, 0x32#8, 0x33#8, 0x34#8, 0x35#8, 0x36#8, 0x37#8, 0x38#8, 0x39#8, 0x30#8] (counterMessage 0#64) =
      [0xCC#8, 0x93#8, 0xCF#8, 0x18#8, 0x50#8, 0x8D#8, 0x94#8, 0x93#8, 0x4C#8, 0x64#8, 0xB6#8, 0x5D#8, 0x8B#8, 0xA7#8, 0x66#8, 0x7F#8, 0xB7#8, 0xCD#8, 0xE4#8, 0xB0#8] := by decide +kernel

/-- T14 H8: a key of 64 bytes is one block and is not hashed first. -/
theorem test_hmac_key_64 : hotpToken (List.replicate 64 0xAA#8) 0#64 6 = 639994 := by decide +kernel

/-- T14 H9: a key of 65 bytes is hashed first. -/
theorem test_hmac_key_65 : hotpToken (List.replicate 65 0xAA#8) 0#64 6 = 281009 := by decide +kernel

/-- 41 R163 on T6's digest of counter 1: offset 11, 1094287082. -/
theorem test_truncate :
    truncate [0x75#8, 0xA4#8, 0x8A#8, 0x19#8, 0xD4#8, 0xCB#8, 0xE1#8, 0x00#8, 0x64#8, 0x4E#8, 0x8A#8, 0xC1#8, 0x39#8, 0x7E#8, 0xEA#8, 0x74#8, 0x7A#8, 0x2D#8, 0x33#8, 0xAB#8] = 1094287082 := by decide

/-! ### Registers and the bus (T19, 20 R63) -/

theorem test_reset_reads :
    windowRead 0x000 .w32 State.reset = .readOk 0xB32C0001#32 ∧
    windowRead 0x004 .w32 State.reset = .readOk 0x1#32 ∧
    windowRead 0x024 .w32 State.reset = .readOk 6#32 ∧
    windowRead 0x034 .w32 State.reset = .readOk 30#32 ∧
    windowRead 0x050 .w32 State.reset = .readOk 4096#32 := by decide

/-- 20 R63: a 16-bit access to a register is a bus error, with read data 0; so is a 32-bit BUF access at index 2. -/
theorem test_bus_error :
    windowRead 0x004 .w16 State.reset = .readError 0#32 ∧
    (windowWrite 0x10002 .w32 0#32 State.reset).2 = .writeError ∧
    after (fun t => t.responses) (step { State.reset with inputs := [.host (.read 0x10001 .w16)] }) =
      some [.readError 0#32] := by decide

/-- 20 R62: the low lane goes to the lowest index, and a 16-bit read above it sees the next two. -/
theorem test_little_endian :
    (windowWrite 0x10004 .w32 0x44332211#32 State.reset).1.buf =
      [(4, 0x11#8), (5, 0x22#8), (6, 0x33#8), (7, 0x44#8)] ∧
    windowRead 0x10006 .w16 (windowWrite 0x10004 .w32 0x44332211#32 State.reset).1 = .readOk 0x4433#32 := by decide

/-- 20 R64: while BUSY the Host reads 0 from BUF. -/
theorem test_locked_buffer : windowRead 0x10000 .w8 (mzxw id) = .readOk 0#32 := by decide

/-- 93 U9: an access outside the window is a model fault. -/
theorem test_not_routed :
    step { State.reset with inputs := [.host (.read 0x20000 .w32)] } = .fault .notRouted := by rfl

/-- 70 R220: reset abandons the command in flight. -/
theorem test_reset_abandons :
    after (fun t => (statusOf t, t.buf, t.resets)) (step { mzxw id with inputs := [.reset] }) =
      some (0#32, [], 1) := by decide

/-! ### Witnesses: for each obligation with hypotheses, states and operands that meet them, one per clause -/

/-- TOTPCNT in flight, with nothing pending. -/
def busy : State := totp 0#32 59#32 id

/-- A 20-byte digest, the last byte b. -/
def digest (b : Byte) : List Byte := List.replicate 19 0xAB#8 ++ [b]

theorem witness_DecodeAndEncodeAgree :
    ([] : List Byte).length < 4 ∧ [0x02#8, 0x01#8, 0x00#8].length < 4 := by decide

theorem witness_ReservedWordsAreAcceptedAndFail :
    State.reset.csr.status.busy = false ∧
    (0x0#32).extractLsb' 0 4 ∉ ([1#4, 2#4, 3#4, 4#4] : List (BitVec 4)) ∧
    (0xFFFFFCF5#32).extractLsb' 0 4 ∉ ([1#4, 2#4, 3#4, 4#4] : List (BitVec 4)) ∧
    (0x30F#32).extractLsb' 0 4 ∉ ([1#4, 2#4, 3#4, 4#4] : List (BitVec 4)) := by decide

theorem witness_ResetPutsEveryRegisterAtItsResetValue :
    busy.csr.status.busy = true ∧ ({ busy with inputs := [.reset, .core] } : State).inputs = .reset :: [.core] := by
  decide

/-- A block at 0x20000; accesses just below it, at both its ends, just above it, and one too wide. -/
theorem witness_HostAccessIsOneStep :
    let p : Params := { bufSel := 0, baseIndex := 1 }
    (Access.read 0x20000 .wider).width = .wider ∧
    ((Access.read 0x1FFFF .w8).width ≠ .wider ∧ (Access.read 0x1FFFF .w8).addr < p.blockBase) ∧
    ((Access.write 0x40000 .w8 0#32).width ≠ .wider ∧ p.blockBase + 0x20000 ≤ (Access.write 0x40000 .w8 0#32).addr) ∧
    (p.blockBase ≤ (Access.read 0x20000 .w32).addr ∧ (Access.read 0x20000 .w32).addr < p.blockBase + 0x20000) ∧
    (p.blockBase ≤ (Access.write 0x3FFFF .w8 0#32).addr ∧
      (Access.write 0x3FFFF .w8 0#32).addr < p.blockBase + 0x20000) := by decide

theorem witness_RegisterWritesReachOneRegister :
    State.reset.csr.status.busy = false ∧ 0x010 ≤ regOffset .srcAddr ∧ regOffset .nowHi ≤ 0x03C ∧
    Reg.bufSize ∈ ([.id, .resLen, .resToken, .resCntLo, .resCntHi, .bufSize] : List Reg) := by decide

theorem witness_StatusFieldsFollowTheirRule :
    busy.csr.status.done = false ∧ after (fun t => t.csr.status.done) (step busy) = some true ∧
    after (fun t => t.responses) (step { busy with inputs := [.host (.read 0x008 .w32)] }) = some [.readOk 0x1#32] ∧
    0x008 = busy.params.blockBase + 0x008 := by decide

theorem witness_AcceptanceLatchesTheSnapshot :
    State.reset.csr.status.busy = false ∧ (0xF#32).extractLsb' 0 4 ∉ ([1#4, 2#4, 3#4, 4#4] : List (BitVec 4)) := by
  decide

/-- The first and the last index of BUF. -/
theorem witness_BusyLocksOperandsCommandAndBuffer :
    busy.csr.status.busy = true ∧ 0x010 ≤ regOffset .srcAddr ∧ regOffset .nowHi ≤ 0x03C ∧
    (0 < busy.params.bufBytes ∧ Width.w32 ≠ .wider ∧ 0 % widthBytes .w32 = 0) ∧
    (4095 < busy.params.bufBytes ∧ Width.w8 ≠ .wider ∧ 4095 % widthBytes .w8 = 0) := by decide

theorem witness_ReservedReadsZeroAndIgnoresWrites :
    (0x054 ≤ 0x054 ∧ 0x054 ≤ 0x0FC ∧ 0x054 % 4 = 0) ∧ (0x054 ≤ 0x0FC ∧ 0x0FC % 4 = 0) ∧
    (accept 0xFFFFFFFF#32 State.reset).csr.cmd &&& cmdMask = (accept 0xFFFFFFFF#32 State.reset).csr.cmd := by decide

theorem witness_BusErrorsAreTheBadWidthsAndAlignments :
    (0x1FFFF < 0x20000 ∧ Width.w8 ≠ .wider) ∧
    (windowWrite 0x0FC .w16 0#32 State.reset).2 = .writeError ∧
    windowRead 0x000 .w32 State.reset ≠ .readError 0#32 ∧
    (windowWrite 0x11001 .w16 0#32 State.reset).2 = .writeError ∧
    (windowWrite 0x000 .w32 0#32 State.reset).2 ≠ .writeError ∧
    ((0x100 ≤ 0x100 ∧ 0x100 < 0x10000) ∧ 0x100 % widthBytes .w32 = 0) ∧
    (0x10000 + State.reset.params.bufBytes ≤ 0x11000 ∧ 0x11000 % widthBytes .w32 = 0) ∧
    (0x10000 + State.reset.params.bufBytes ≤ 0x1FFFF ∧ 0x1FFFF % widthBytes .w8 = 0) := by decide

theorem witness_HostAccessesAreLittleEndian :
    State.reset.csr.status.busy = false ∧ (0 % 4 = 0 ∧ 0 + 4 ≤ State.reset.params.bufBytes) ∧
    (4092 % 4 = 0 ∧ 4092 + 4 ≤ State.reset.params.bufBytes) ∧
    (4094 % 2 = 0 ∧ 4094 + 2 ≤ State.reset.params.bufBytes) := by decide

theorem witness_HostBufferWriteStoresItsWidthOnly :
    State.reset.csr.status.busy = false ∧ Width.w8 ≠ .wider ∧ 4095 < State.reset.params.bufBytes ∧
    4095 % widthBytes .w8 = 0 ∧ 4092 % widthBytes .w32 = 0 ∧ 4094 % widthBytes .w16 = 0 := by decide

theorem witness_UnwrittenBytesReadOneUnknownValue :
    State.reset.csr.status.busy = false ∧ 4095 < State.reset.params.bufBytes ∧
    readByte? State.reset.buf 4095 = none ∧ readByte? State.reset.buf 3 = none ∧ Width.w32 ≠ .wider ∧
    (4088 < State.reset.params.bufBytes ∧ 4088 % widthBytes .w32 = 0 ∧ 4088 + widthBytes .w32 ≤ 4095) ∧
    (4 < State.reset.params.bufBytes ∧ 4 % widthBytes .w32 = 0 ∧ 3 < 4) ∧
    (4094 < State.reset.params.bufBytes ∧ 4094 % widthBytes .w8 = 0 ∧ 4094 + widthBytes .w8 ≤ 4095) := by decide

theorem witness_IrqFollowsDoneAndItsEnable :
    after statusOf (exec (.totpcnt false false) busy) = some 0x2#32 ∧ (0x2#32).getLsbD 1 = true ∧
    State.reset.csr.status.busy = false := by decide

theorem witness_StepRunsTheDecodedCommand :
    CoreNext busy ∧ CoreNext { busy with inputs := [.core] } ∧ busy.csr.status.busy = true ∧
    busy.snap.command = .totpcnt false false ∧
    bytesOfWord 0x102#32 = [0x02#8, 0x01#8, 0x00#8, 0x00#8] ∧
    decode [0x02#8, 0x01#8, 0x00#8, 0x00#8] = .ok (.b32enc false true, []) ∧
    Instr.wellFormed (.b32enc false true) = true ∧ decodeTableWord 32 0x102 = some (.b32enc false true) :=
  ⟨.inl rfl, .inr rfl, by decide, by decide, by decide, rfl, rfl, by decide⟩

theorem witness_IdleBlockWaits :
    CoreNext State.reset ∧ CoreNext { State.reset with inputs := [.core, .reset] } ∧
    State.reset.csr.status.busy = false := ⟨.inl rfl, .inr rfl, rfl⟩

/-- Acceptance, completion and reset. -/
theorem witness_BusyChangesOnlyByAcceptanceCompletionOrReset :
    (State.reset.csr.status.busy = false ∧
      after statusOf (step { State.reset with inputs := [.host (.write 0x00C .w32 0x4#32)] }) = some 0x1#32) ∧
    (busy.csr.status.busy = true ∧ after statusOf (step busy) = some 0x2#32) ∧
    after statusOf (step { busy with inputs := [.reset] }) = some 0#32 := by decide

/-- Each result register changes at its own command's completion. -/
theorem witness_ResultsChangeOnlyAtTheirCompletion :
    (mzxw id).inputs.head? ≠ some .reset ∧ (mzxw id).csr.resLen = 0#32 ∧
    after (fun t => t.csr.resLen) (step (mzxw id)) = some 6#32 ∧
    busy.csr.resCntLo = 0#32 ∧ after (fun t => t.csr.resCntLo) (step busy) = some 1#32 := by decide

theorem witness_ResultsChangeOnlyAtTheirCompletion_token :
    (rfcKey id).csr.resToken = 0#32 ∧ after (fun t => t.csr.resToken) (step (rfcKey id)) = some 755224#32 := by
  decide +kernel

theorem witness_StepConsumesOneInput :
    (∃ a, ({ busy with inputs := [.host (.read 0x008 .w32)] } : State).inputs.head? = some (.host a)) ∧
    after (fun t => (t.inputs, t.responses)) (step { busy with inputs := [.host (.read 0x008 .w32)] }) =
      some ([], [.readOk 0x1#32]) ∧
    (¬ ∃ a, busy.inputs.head? = some (.host a)) ∧ after (fun t => t.responses) (step busy) = some [] :=
  ⟨⟨_, rfl⟩, by decide, (by rintro ⟨a, h⟩; cases h), by decide⟩

/-- Ten bytes of input, every one written. -/
theorem inputWritten_mzxw (f : Csr → Csr) (hs : (mzxw f).snap.srcAddr = 0#32) (hl : (mzxw f).snap.srcLen = 10#32) :
    InputWritten (mzxw f) := by
  have hw : inputWindow (mzxw f).snap = (0, 10) := by
    show (u32 (mzxw f).snap.srcAddr, u32 (mzxw f).snap.srcLen) = (0, 10)
    rw [hs, hl]; rfl
  unfold InputWritten Written
  rw [hw]
  intro i _ h2 _
  have hb : (mzxw f).buf = (withBytes 0 [0x4D#8, 0x5A#8, 0x58#8, 0x57#8, 0x36#8, 0x59#8, 0x54#8, 0x42#8, 0x4F#8,
    0x49#8]).buf := rfl
  rw [hb]
  have h10 : i < 10 := by simpa using h2
  interval_cases i <;> rfl

theorem witness_TheBlockIsNeverStuck :
    NextAdmitted (mzxw id) ∧ CoreNext (mzxw id) ∧ (mzxw id).csr.status.busy = true ∧ InputWritten (mzxw id) ∧
    NextAdmitted { mzxw id with inputs := [.host (.write 0x1FFFF .w8 0#32)] } := by
  refine ⟨?_, .inl rfl, rfl, inputWritten_mzxw id rfl rfl, ?_⟩
  · intro i h; cases h
  · intro i h; cases h; decide

theorem witness_EveryCommandCompletes :
    let s : State := { mzxw id with inputs := [.host (.read 0x008 .w32), .host (.write 0x10000 .w32 0#32)] }
    s.csr.status.busy = true ∧ InputWritten s ∧
    (∀ i ∈ s.inputs, ∃ a : Access, i = .host a ∧ a.wellFormed s.params = true) := by
  refine ⟨rfl, inputWritten_mzxw id rfl rfl, ?_⟩
  intro i hi
  simp only [List.mem_cons, List.not_mem_nil, or_false] at hi
  rcases hi with rfl | rfl
  · exact ⟨_, rfl, by decide⟩
  · exact ⟨_, rfl, by decide⟩

theorem witness_HostCannotDisturbTheCommandInFlight :
    let s : State := { busy with inputs := [.host (.write 0x004 .w32 0#32), .host (.write 0x00C .w32 0#32)] }
    s.csr.status.busy = true ∧
    (∀ i ∈ s.inputs, ∃ a : Access, i = .host a ∧ a.wellFormed s.params = true) ∧
    ∃ t, step { s with inputs := [] } = .next t := by
  refine ⟨rfl, ?_, ⟨_, rfl⟩⟩
  intro i hi
  simp only [List.mem_cons, List.not_mem_nil, or_false] at hi
  rcases hi with rfl | rfl
  · exact ⟨_, rfl, by decide⟩
  · exact ⟨_, rfl, by decide⟩

theorem witness_AliasEnableIsSampledAtAcceptance :
    after statusOf (exec (.b32dec false false) (mzxw id)) = some 0x2#32 := by decide

theorem witness_StepKeepsTheInvariant :
    BlockInv (mzxw id) ∧ after statusOf (step (mzxw id)) = some 0x2#32 := by
  refine ⟨?_, by decide⟩
  constructor
  · decide
  · decide
  all_goals decide

theorem witness_IllegalOpcodesComplete :
    Instr.illegal0 true true ∈ [Instr.illegal0 true true, .illegal5 true true] ∧
    Instr.illegalF false false ∈ [Instr.illegalE false false, .illegalF false false] := by decide

/-- "MZXW6YTBOI", and its six bytes. -/
theorem witness_B32decWritesTheDecodedBytes :
    let s := mzxw (fun c => { c with dstAddr := 4090#32 })
    let text : List Byte := [0x4D#8, 0x5A#8, 0x58#8, 0x57#8, 0x36#8, 0x59#8, 0x54#8, 0x42#8, 0x4F#8, 0x49#8]
    let vals := [12#5, 25#5, 23#5, 22#5, 30#5, 24#5, 19#5, 1#5, 14#5, 8#5]
    InBuf s.params.bufBytes (u32 s.snap.srcAddr) (u32 s.snap.srcLen) ∧
    memRead s.buf (u32 s.snap.srcAddr) (u32 s.snap.srcLen) = some text ∧
    List.Forall₂ (fun c v => alpha (upper c) s.snap.aliasEn = some v) (trim text) vals ∧
    InBuf s.params.bufBytes (u32 s.snap.dstAddr) (5 * vals.length / 8) := by
  refine ⟨by decide, by decide, ?_, by decide⟩
  show List.Forall₂ _ [0x4D#8, 0x5A#8, 0x58#8, 0x57#8, 0x36#8, 0x59#8, 0x54#8, 0x42#8, 0x4F#8, 0x49#8] _
  repeat' constructor

theorem witness_B32encWritesTheEncodedText :
    let s := foobar 0x102#32 (fun c => { c with dstAddr := 4080#32 })
    0 ≤ s32 s.snap.offset ∧ 0 ≤ s32 s.snap.length ∧
    s32 s.snap.offset + s32 s.snap.length ≤ (u32 s.snap.srcLen : Int) ∧ s32 s.snap.length < 2 ^ 28 ∧
    InBuf s.params.bufBytes (u32 s.snap.srcAddr) (u32 s.snap.srcLen) ∧
    10 = (8 * (s32 s.snap.length).toNat + 4) / 5 ∧ 6 = (if true then (8 - 10 % 8) % 8 else 0) ∧
    InBuf s.params.bufBytes (u32 s.snap.dstAddr) (10 + 6) ∧
    memRead s.buf (u32 s.snap.srcAddr + (s32 s.snap.offset).toNat) (s32 s.snap.length).toNat =
      some [0x66#8, 0x6F#8, 0x6F#8, 0x62#8, 0x61#8, 0x72#8] := by decide

theorem witness_HotpgenWritesTheToken :
    let s := rfcKey (fun c => { c with dstAddr := 4086#32, digits := 10#32 })
    let key : List Byte := [0x31#8, 0x32#8, 0x33#8, 0x34#8, 0x35#8, 0x36#8, 0x37#8, 0x38#8, 0x39#8, 0x30#8,
      0x31#8, 0x32#8, 0x33#8, 0x34#8, 0x35#8, 0x36#8, 0x37#8, 0x38#8, 0x39#8, 0x30#8]
    0 ≤ s64 s.snap.counter ∧ u32 s.snap.srcLen ≠ 0 ∧ s32 s.snap.digits = ((10 : Nat) : Int) ∧ 1 ≤ 10 ∧ 10 ≤ 10 ∧
    InBuf s.params.bufBytes (u32 s.snap.srcAddr) (u32 s.snap.srcLen) ∧
    InBuf s.params.bufBytes (u32 s.snap.dstAddr) 10 ∧
    memRead s.buf (u32 s.snap.srcAddr) (u32 s.snap.srcLen) = some key ∧
    ∃ tok, tok = truncate (hmacSha1 key (beBytes 8 s.snap.counter.toNat)) % 10 ^ 10 :=
  ⟨by decide, by decide, by decide, by decide, by decide, by decide, by decide, by decide, _, rfl⟩

theorem witness_TotpcntWritesTheStepCounter :
    0 < (totp 0#32 59#32 (fun c => { c with step := 1#32 })).snap.step.toInt ∧
    (totp 0#32 59#32 (fun c => { c with step := 0#32 })).snap.step.toInt ≤ 0 := by decide

/-- B32DEC's clauses. -/
theorem witness_CommandsReportTheFirstError_b32dec :
    (illegal 0x5#32).snap.op ∉ ([1#4, 2#4, 3#4, 4#4] : List (BitVec 4)) ∧
    ¬ InBuf 4096 (u32 (mzxw (fun c => { c with srcAddr := 4087#32 })).snap.srcAddr) 10 ∧
    (memRead (mzxw id).buf 0 3 = some [0x4D#8, 0x5A#8, 0x58#8] ∧
      ∃ c ∈ trim [0x4D#8, 0x5A#8, 0x39#8], alpha (upper c) true = none) ∧
    ((∀ c ∈ trim [0x4D#8, 0x5A#8, 0x58#8], alpha (upper c) true ≠ none) ∧
      ¬ InBuf 4096 4096 (5 * (trim [0x4D#8, 0x5A#8, 0x58#8]).length / 8)) := by decide

/-- B32ENC's clauses, in the order of its checks. -/
theorem witness_CommandsReportTheFirstError_b32enc :
    let S (f : Csr → Csr) := (foobar 0x102#32 f).snap
    s32 (S (fun c => { c with offset := 0xFFFFFFFF#32 })).offset < 0 ∧
    (0 ≤ s32 (S id).offset ∧ s32 (S (fun c => { c with length := 0xFFFFFFFF#32 })).length < 0) ∧
    (0 ≤ s32 (S id).length ∧ (u32 (S id).srcLen : Int) < s32 (S (fun c => { c with offset := 1#32 })).offset + 6) ∧
    (let T := S (fun c => { c with srcLen := 0x10000000#32, length := 0x10000000#32 })
     0 ≤ s32 T.offset ∧ s32 T.offset + s32 T.length ≤ (u32 T.srcLen : Int) ∧ 2 ^ 28 ≤ s32 T.length) ∧
    (let T := S (fun c => { c with srcAddr := 4091#32 })
     0 ≤ s32 T.offset ∧ 0 ≤ s32 T.length ∧ s32 T.offset + s32 T.length ≤ (u32 T.srcLen : Int) ∧
      s32 T.length < 2 ^ 28 ∧ ¬ InBuf 4096 (u32 T.srcAddr) (u32 T.srcLen)) ∧
    (let T := S (fun c => { c with dstAddr := 4081#32 })
     0 ≤ s32 T.offset ∧ 0 ≤ s32 T.length ∧ s32 T.offset + s32 T.length ≤ (u32 T.srcLen : Int) ∧
      s32 T.length < 2 ^ 28 ∧ InBuf 4096 (u32 T.srcAddr) (u32 T.srcLen) ∧
      10 = (8 * (s32 T.length).toNat + 4) / 5 ∧
      ¬ InBuf 4096 (u32 T.dstAddr) (10 + if true then (8 - 10 % 8) % 8 else 0)) := by decide

/-- HOTPGEN's clauses and TOTPCNT's. -/
theorem witness_CommandsReportTheFirstError_otp :
    let S (f : Csr → Csr) := (rfcKey f).snap
    s64 (S (fun c => { c with counterHi := 0x80000000#32 })).counter < 0 ∧
    (0 ≤ s64 (S id).counter ∧ u32 (S (fun c => { c with srcLen := 0#32 })).srcLen = 0) ∧
    (u32 (S id).srcLen ≠ 0 ∧ s32 (S (fun c => { c with digits := 0#32 })).digits < 1) ∧
    10 < s32 (S (fun c => { c with digits := 11#32 })).digits ∧
    (1 ≤ s32 (S id).digits ∧ s32 (S id).digits ≤ 10 ∧
      ¬ InBuf 4096 (u32 (S (fun c => { c with srcAddr := 4077#32 })).srcAddr) (u32 (S id).srcLen)) ∧
    (InBuf 4096 (u32 (S id).srcAddr) (u32 (S id).srcLen) ∧
      ¬ InBuf 4096 (u32 (S (fun c => { c with dstAddr := 4091#32 })).dstAddr) (s32 (S id).digits).toNat) ∧
    s32 (totp 0#32 0#32 (fun c => { c with step := 0#32 })).snap.step ≤ 0 := by decide

/-- Both directions of B32DEC's clause, and a command the last clauses are about. -/
theorem witness_CommandsStopOnlyOnUnwrittenInput :
    let s := issued 0x1#32 (fun c => { c with srcLen := 1#32 }) State.reset
    (InBuf s.params.bufBytes (u32 s.snap.srcAddr) (u32 s.snap.srcLen) ∧
      ∃ k, k < u32 s.snap.srcLen ∧ readByte? s.buf (u32 s.snap.srcAddr + k) = none) ∧
    exec (.b32dec false false) s = .fault .unwrittenBufByte ∧
    (∀ n p, Instr.illegal5 true true ≠ .b32dec n p ∧ Instr.illegal5 true true ≠ .b32enc n p ∧
      Instr.illegal5 true true ≠ .hotpgen n p) := by
  exact ⟨⟨by decide, 0, by decide, by decide⟩, rfl, by decide⟩

theorem witness_ErrorCompletionWritesOnlyStatus :
    after (fun t => t.csr.status.err) (exec (.illegal0 false false) (illegal 0#32)) = some true := by decide

theorem witness_FrameOfCommandsThatStoreNothing :
    Instr.totpcnt true true ∈ [Instr.totpcnt true true, .illegal0 true true] ∧
    after statusOf (exec (.totpcnt true true) busy) = some 0x2#32 ∧
    Instr.illegal5 true true ≠ .totpcnt true true ∧
    after statusOf (exec (.illegal5 true true) busy) = some 0xC56#32 := by decide

theorem witness_FrameOfCommandsThatStore :
    Instr.b32enc false true ≠ .hotpgen false true ∧
    after (fun t => (t.csr.status.err, t.csr.resLen)) (exec (.b32enc false true) (foobar 0x102#32 id)) =
      some (false, 16#32) ∧
    (272 < u32 (foobar 0x102#32 id).snap.dstAddr ∨ u32 (foobar 0x102#32 id).snap.dstAddr + 16 ≤ 272) ∧
    after (fun t => t.csr.status.err) (exec (.b32enc true true) (foobar 0x302#32 id)) = some true := by decide

/-- Two blocks that differ in a byte outside the input window and in RES_TOKEN. -/
theorem witness_OutcomeDependsOnlyOnSnapshotAndInput :
    let s := mzxw id
    let s' := { mzxw id with buf := writeByte (mzxw id).buf 10 0xFF#8, csr := { (mzxw id).csr with resToken := 7#32 } }
    s.snap = s'.snap ∧ s.params.bufBytes = s'.params.bufBytes ∧ s.snap.op ∈ ([1#4, 2#4, 3#4] : List (BitVec 4)) ∧
    (∀ a, (inputWindow s.snap).1 ≤ a → a < (inputWindow s.snap).1 + (inputWindow s.snap).2 →
      readByte? s.buf a = readByte? s'.buf a) ∧
    after statusOf (exec s.snap.command s) = some 0x2#32 ∧
    (illegal 0x3#32).snap.op = 3#4 ∧ busy.snap.op = 4#4 := by
  refine ⟨rfl, rfl, by decide, ?_, by decide, by decide, by decide⟩
  intro a _ h2
  have h10 : a < 10 := by
    have hw : inputWindow (mzxw id).snap = (0, 10) := by decide
    rw [hw] at h2; simpa using h2
  rw [readByte?_writeByte, if_neg (by omega)]

theorem witness_EmptyTextDecodesToNothing :
    let s := issued 0x1#32 (fun c => { c with srcLen := 2#32, dstAddr := 99999#32 }) (withBytes 0 [0x20#8, 0x09#8])
    InBuf s.params.bufBytes (u32 s.snap.srcAddr) (u32 s.snap.srcLen) ∧
    memRead s.buf (u32 s.snap.srcAddr) (u32 s.snap.srcLen) = some [0x20#8, 0x09#8] ∧ trim [0x20#8, 0x09#8] = [] ∧
    (∀ c ∈ [0x20#8, 0x09#8], isWS c = true) := by decide

/-- A text with an inner space left in it. -/
theorem witness_TrimStripsOnce :
    ∃ c ∈ trim [0x4D#8, 0x5A#8, 0x20#8, 0x3D#8, 0x3D#8], c = 0x3D#8 ∨ isWS c = true := by decide

/-- The ends of each range of the alphabet, and its neighbours. -/
theorem witness_AlphaIsTheDecodeAlphabet :
    (0x41 ≤ (0x41#8).toNat ∧ (0x5A#8).toNat ≤ 0x5A) ∧ (0x32 ≤ (0x32#8).toNat ∧ (0x37#8).toNat ≤ 0x37) ∧
    ((0x2F#8).toNat < 0x30 ∧ (0x39#8).toNat = 0x39 ∧ (0x3A ≤ (0x40#8).toNat ∧ (0x40#8).toNat ≤ 0x40) ∧
      0x5A < (0x5B#8).toNat) := by decide

theorem witness_AlphabetIsReadBack :
    (25#5).toNat ≤ 25 ∧ 26 ≤ (26#5).toNat ∧ (0x61 ≤ (0x61#8).toNat ∧ (0x7A#8).toNat ≤ 0x7A) ∧
    ¬ (0x61 ≤ (0x7B#8).toNat ∧ (0x7B#8).toNat ≤ 0x7A) := by decide

theorem witness_DecodedBytesAreTheValuesBits : 7 < 8 * (5 * [12#5, 25#5].length / 8) := by decide

theorem witness_EncodedIndicesAreTheBytesBits : 9 < 5 * (repack8to5 [0x66#8]).length := by decide

/-- Every remainder. -/
theorem witness_EncodedTextHasItsLength :
    ([] : List Byte).length = 5 * 0 + 0 ∧ [0x66#8].length = 5 * 0 + 1 ∧ [0x66#8, 0x6F#8].length = 5 * 0 + 2 ∧
    [0x66#8, 0x6F#8, 0x6F#8].length = 5 * 0 + 3 ∧ [0x66#8, 0x6F#8, 0x6F#8, 0x62#8].length = 5 * 0 + 4 ∧
    [0x66#8, 0x6F#8, 0x6F#8, 0x62#8, 0x61#8].length = 5 * 1 + 0 := by decide

theorem witness_EncodeThenDecodeOnTheMachine :
    let s := foobar 0x102#32 id
    let S : Snapshot := { s.snap with srcAddr := 256#32, srcLen := 16#32, dstAddr := 4090#32 }
    after (fun t => (t.csr.status.err, t.csr.resLen)) (exec (.b32enc false true) s) = some (false, S.srcLen) ∧
    S.srcAddr = s.snap.dstAddr ∧ InBuf s.params.bufBytes (u32 S.dstAddr) (s32 s.snap.length).toNat := by decide

theorem witness_DecodingIgnoresCaseAndAliases :
    ∃ c ∈ [0x4A#8, 0x38#8], c = 0x30#8 ∨ c = 0x31#8 ∨ c = 0x38#8 := by decide

theorem witness_CounterMessageIsBigEndian :
    (counterMessage 0xFFFFFFFFFFFFFFFF#64)[0]? = some 0x7F#8 ∧ 0 ≤ (0x7FFFFFFFFFFFFFFF#64).toInt := by decide

/-- The smallest and the largest offset. -/
theorem witness_TruncationReadsFourBytesAtTheOffset :
    (digest 0x00#8).length = 20 ∧ (digest 0xFF#8).length = 20 := by decide

theorem witness_TokenTextIsItsDecimalValue : 0 < 10 ^ 0 ∧ 2147483647 < 10 ^ 10 ∧ 9 < 10 ^ 1 := by decide

/-- The boundary of the key's length. -/
theorem witness_DigestAndTokenAreInRange :
    64 < (List.replicate 65 0xAA#8).length ∧ (List.replicate 63 0xAA#8).length + 1 ≤ 64 ∧
    (List.replicate 64 0xAA#8).length + 0 ≤ 64 := by decide

theorem witness_HmacFollowsItsConstruction :
    64 < (List.replicate 65 0xAA#8).length ∧ (List.replicate 64 0xAA#8).length ≤ 64 := by decide

/-- Both ends of each range of rounds. -/
theorem witness_Sha1CompressionFollowsItsRounds :
    (0 < 20 ∧ 19 < 20) ∧ ((20 ≤ 20 ∧ 20 < 40) ∧ 20 ≤ 39 ∧ 39 < 40) ∧ ((40 ≤ 40 ∧ 40 < 60) ∧ 40 ≤ 59 ∧ 59 < 60) ∧
    ((60 ≤ 60 ∧ 60 < 80) ∧ 60 ≤ 79 ∧ 79 < 80) ∧ (List.replicate 64 0x36#8).length = 64 := by decide

theorem witness_Sha1StartsAndEndsAsItsRule : 0 < (sha1Pad []).length / 64 := by decide

theorem witness_Sha1PaddingMakesWholeBlocks :
    8 * (digest 0#8).length < 2 ^ 64 ∧ (List.replicate 64 0x36#8).length = 64 ∧ 15 < 16 := by decide

theorem witness_Sha1ScheduleFollowsItsRecurrence :
    (List.replicate 64 0x36#8).length = 64 ∧ (16 ≤ 16 ∧ 16 < 80) ∧ (16 ≤ 79 ∧ 79 < 80) := by decide

theorem witness_StepCounterTruncatesTowardZero :
    (0 < (30 : Int) ∧ 0 ≤ (0 : Int) - 0) ∧ ((-31 : Int) - 0 < 0 ∧ ((-31 : Int) - 0) % 30 ≠ 0) ∧
    ((-30 : Int) - 0 < 0 ∧ ((-30 : Int) - 0) % 30 = 0) := by decide

theorem witness_StepCounterIsMonotone :
    let s := totp 0xFFFFFFFF#32 0xFFFFFFE1#32 id
    let s' := totp 0#32 59#32 id
    s.snap.epoch = s'.snap.epoch ∧ s.snap.step = s'.snap.step ∧ 0 < s32 s.snap.step ∧
    s64 s.snap.now ≤ s64 s'.snap.now ∧ after statusOf (exec (.totpcnt false false) s) = some 0x2#32 ∧
    after statusOf (exec (.totpcnt true true) s') = some 0x2#32 ∧
    -(2 ^ 63) ≤ stepCounter (s64 s.snap.now) (s32 s.snap.epoch) (s32 s.snap.step) ∧
    stepCounter (s64 s'.snap.now) (s32 s'.snap.epoch) (s32 s'.snap.step) < 2 ^ 63 := by decide
end Sys2Proof.Tests
end

section
/-! SUPPORT. The register map and the window: which offset is which register, and what an aligned access to a register,
to a reserved offset and to BUF does (10 R22, R40, R44; 20 R60 to R64). -/

namespace Sys2Proof.Machine

/-! ### The register map -/

/-- The operand registers stand at offsets 0x010 to 0x03C (10 R44). -/
abbrev IsOperand (r : Reg) : Prop := 0x010 ≤ regOffset r ∧ regOffset r ≤ 0x03C

theorem regOffset_le (r : Reg) : regOffset r ≤ 0x050 := by cases r <;> decide

theorem regOffset_mod_four (r : Reg) : regOffset r % 4 = 0 := by cases r <;> rfl

@[simp] theorem regAt_regOffset (r : Reg) : regAt (regOffset r) = some r := by cases r <;> rfl

theorem regOffset_of_regAt {off : Nat} {r : Reg} (h : regAt off = some r) : regOffset r = off := by
  simpa using List.find?_some h

/-- Above BUF_SIZE there is no register (10 R22, R40). -/
theorem regAt_eq_none {off : Nat} (h : 0x050 < off) : regAt off = none := by
  refine List.find?_eq_none.mpr fun r _ => ?_
  have := regOffset_le r
  simp only [beq_iff_eq]
  omega

theorem regionOf_csr {N off : Nat} (h : off < 0x100) : regionOf N off = .csr := by simp [regionOf, h]

theorem regionOf_buf {N i : Nat} (h : i < N) : regionOf N (0x10000 + i) = .buf i := by
  simp [regionOf, show ¬ 0x10000 + i < 0x100 by omega, h]

/-- An offset in BUF's region is 0x10000 and its index (20 R60). -/
theorem regionOf_eq_buf {N off i : Nat} (h : regionOf N off = .buf i) : off = 0x10000 + i ∧ i < N := by
  unfold regionOf at h
  split_ifs at h with h1 h2 h3
  obtain rfl : off - 0x10000 = i := by simpa using h
  omega

/-! ### Aligned accesses -/

@[simp] theorem windowRead_reg (r : Reg) (s : State) :
    windowRead (regOffset r) .w32 s = .readOk (csrRead s.params s.csr r) := by
  have hle := regOffset_le r
  simp [windowRead, regionOf_csr (show regOffset r < 0x100 by omega), accessOk, regOffset_mod_four]

@[simp] theorem windowWrite_reg (r : Reg) (w : Word) (s : State) :
    windowWrite (regOffset r) .w32 w s = (csrWrite r w s, .writeOk) := by
  have hle := regOffset_le r
  simp [windowWrite, regionOf_csr (show regOffset r < 0x100 by omega), accessOk, regOffset_mod_four]

/-- The reserved offsets behind the registers (10 R40). -/
theorem window_reserved_csr {off : Nat} (h1 : 0x050 < off) (h2 : off < 0x100) (h4 : off % 4 = 0) (w : Word)
    (s : State) : windowRead off .w32 s = .readOk 0#32 ∧ windowWrite off .w32 w s = (s, .writeOk) := by
  simp [windowRead, windowWrite, regionOf_csr h2, accessOk, h4, regAt_eq_none h1]

/-- While BUSY an aligned access to BUF reads 0 and writes nothing (20 R64). -/
theorem window_buf_busy {i : Nat} {width : Width} {s : State} (hb : s.csr.status.busy = true)
    (hi : i < s.params.bufBytes) (ha : i % widthBytes width = 0) (data : Word) :
    windowRead (0x10000 + i) width s = .readOk 0#32 ∧ windowWrite (0x10000 + i) width data s = (s, .writeOk) := by
  have hok : (0x10000 + i) % widthBytes width = 0 := by
    cases width <;> simp only [widthBytes] at ha ⊢ <;> omega
  simp [windowRead, windowWrite, regionOf_buf hi, accessOk, hok, hb]

/-! ### Register writes -/

/-- A register other than CTRL, STATUS and CMD is written only while IDLE (10 R44). -/
theorem csrWrite_of_ne {r : Reg} (h1 : r ≠ .ctrl) (h2 : r ≠ .status) (h3 : r ≠ .cmd) (w : Word) (s : State) :
    csrWrite r w s = if s.csr.status.busy then s else { s with csr := operandWrite w s.csr r } := by
  unfold csrWrite
  split
  · exact absurd rfl h1
  · exact absurd rfl h2
  · exact absurd rfl h3
  · rfl

theorem IsOperand.ne {r : Reg} (h : IsOperand r) : r ≠ .ctrl ∧ r ≠ .status ∧ r ≠ .cmd := by
  refine ⟨?_, ?_, ?_⟩ <;> rintro rfl <;> exact absurd h (by decide)

theorem csrWrite_operand_idle {r : Reg} (hr : IsOperand r) {s : State} (hb : s.csr.status.busy = false) (w : Word) :
    csrWrite r w s = { s with csr := operandWrite w s.csr r } := by
  obtain ⟨h1, h2, h3⟩ := hr.ne
  simp [csrWrite_of_ne h1 h2 h3, hb]

theorem csrWrite_operand_busy {r : Reg} (hr : IsOperand r) {s : State} (hb : s.csr.status.busy = true) (w : Word) :
    csrWrite r w s = s := by
  obtain ⟨h1, h2, h3⟩ := hr.ne
  simp [csrWrite_of_ne h1 h2 h3, hb]

theorem operandWrite_of_not_isOperand {r : Reg} (h : ¬ IsOperand r) (w : Word) (c : Csr) : operandWrite w c r = c := by
  revert h
  cases r <;> simp [regOffset, operandWrite]

/-- Read-only registers ignore writes, BUSY or not (10 R22). -/
theorem csrWrite_readOnly {r : Reg} (h : r ∈ ([.id, .resLen, .resToken, .resCntLo, .resCntHi, .bufSize] : List Reg))
    (w : Word) (s : State) : csrWrite r w s = s := by
  have hall : ∀ r ∈ ([.id, .resLen, .resToken, .resCntLo, .resCntHi, .bufSize] : List Reg),
      r ≠ .ctrl ∧ r ≠ .status ∧ r ≠ .cmd ∧ ¬ IsOperand r := by decide
  obtain ⟨h1, h2, h3, hop⟩ := hall r h
  simp [csrWrite_of_ne h1 h2 h3, operandWrite_of_not_isOperand hop]

theorem csrWrite_cmd_idle {s : State} (hb : s.csr.status.busy = false) (w : Word) :
    csrWrite .cmd w s = accept w s := by simp [csrWrite, hb]

theorem csrWrite_cmd_busy {s : State} (hb : s.csr.status.busy = true) (w : Word) : csrWrite .cmd w s = s := by
  simp [csrWrite, hb]

/-- What every register reads as after a write to an operand register: that one the word, the others as before. -/
theorem csrRead_operandWrite (p : Params) (w : Word) (c : Csr) (r r' : Reg) :
    csrRead p (operandWrite w c r) r' = if r' = r ∧ IsOperand r then w else csrRead p c r' := by
  cases r <;> cases r' <;> rfl

@[simp] theorem operandWrite_ctrl (w : Word) (c : Csr) (r : Reg) : (operandWrite w c r).ctrl = c.ctrl := by
  cases r <;> rfl

@[simp] theorem operandWrite_status (w : Word) (c : Csr) (r : Reg) : (operandWrite w c r).status = c.status := by
  cases r <;> rfl

@[simp] theorem operandWrite_cmd (w : Word) (c : Csr) (r : Reg) : (operandWrite w c r).cmd = c.cmd := by
  cases r <;> rfl

@[simp] theorem operandWrite_resLen (w : Word) (c : Csr) (r : Reg) : (operandWrite w c r).resLen = c.resLen := by
  cases r <;> rfl

@[simp] theorem operandWrite_resToken (w : Word) (c : Csr) (r : Reg) :
    (operandWrite w c r).resToken = c.resToken := by cases r <;> rfl

@[simp] theorem operandWrite_resCntLo (w : Word) (c : Csr) (r : Reg) :
    (operandWrite w c r).resCntLo = c.resCntLo := by cases r <;> rfl

@[simp] theorem operandWrite_resCntHi (w : Word) (c : Csr) (r : Reg) :
    (operandWrite w c r).resCntHi = c.resCntHi := by cases r <;> rfl

end Sys2Proof.Machine
end

section
/-! SUPPORT. Bits: CTRL, STATUS and command words and the masks of their reserved bits (10 R24 to R26, R40; 30 R90), and
register pairs as numbers (10 R33, R35). -/

namespace Sys2Proof.Machine

/-! ### CTRL -/

theorem getLsbD_ctrl_word (c : Ctrl) (i : Nat) :
    c.word.getLsbD i = if i = 0 then c.aliasEn else if i = 1 then c.irqEn else false := by
  change BitVec.getLsbD (w := 30 + 1 + 1) (0#30 ++ BitVec.ofBool c.irqEn ++ BitVec.ofBool c.aliasEn) i = _
  rw [BitVec.getLsbD_append, BitVec.getLsbD_append]
  rcases i with _ | _ | i <;> simp

/-- CTRL reads back the two bits of the written word (10 R24). -/
theorem ctrl_word_ofWord (w : Word) : (Ctrl.ofWord w).word = w &&& 0x00000003#32 := by
  refine BitVec.eq_of_getLsbD_eq fun i hi => ?_
  rw [getLsbD_ctrl_word, BitVec.getLsbD_and]
  rcases i with _ | _ | i
  · simp [Ctrl.ofWord]
  · simp [Ctrl.ofWord]
  · rw [BitVec.getLsbD_ofNat, show (3 : Nat) = 2 ^ 2 - 1 by rfl, Nat.testBit_two_pow_sub_one]
    simp

/-- CTRL holds no reserved bit (10 R24, R40). -/
theorem ctrl_word_and_reserved (c : Ctrl) : c.word &&& ~~~0x00000003#32 = 0#32 := by
  obtain ⟨a, q⟩ := c
  cases a <;> cases q <;> rfl

/-! ### STATUS -/

theorem getLsbD_status_word (t : Status) (i : Nat) :
    t.word.getLsbD i =
      if i = 0 then t.busy else if i = 1 then t.done else if i = 2 then t.err else if i = 3 then false
      else if i < 8 then t.errcode.bits.getLsbD (i - 4)
      else if i < 12 then t.errparam.bits.getLsbD (i - 8) else false := by
  change BitVec.getLsbD (w := 20 + 4 + 4 + 1 + 1 + 1 + 1) (0#20 ++ t.errparam.bits ++ t.errcode.bits ++ 0#1
    ++ BitVec.ofBool t.err ++ BitVec.ofBool t.done ++ BitVec.ofBool t.busy) i = _
  iterate 6 rw [BitVec.getLsbD_append]
  rcases i with _ | _ | _ | _ | i
  · simp
  · simp
  · simp
  · simp
  · have h8 : i + 1 + 1 + 1 + 1 < 8 ↔ i < 4 := by omega
    have h12 : i + 1 + 1 + 1 + 1 < 12 ↔ i - 4 < 4 := by omega
    simp [Nat.sub_sub, h8, h12]

theorem getLsbD_status_word_of_four_le (t : Status) {i : Nat} (h : 4 ≤ i) :
    t.word.getLsbD i =
      if i < 8 then t.errcode.bits.getLsbD (i - 4)
      else if i < 12 then t.errparam.bits.getLsbD (i - 8) else false := by
  rw [getLsbD_status_word, if_neg (by omega), if_neg (by omega), if_neg (by omega), if_neg (by omega)]

theorem extract_errcode (t : Status) : t.word.extractLsb' 4 4 = t.errcode.bits := by
  refine BitVec.eq_of_getLsbD_eq fun i hi => ?_
  rw [BitVec.getLsbD_extractLsb', getLsbD_status_word_of_four_le t (by omega), if_pos (by omega)]
  simp [hi]

theorem extract_errparam (t : Status) : t.word.extractLsb' 8 4 = t.errparam.bits := by
  refine BitVec.eq_of_getLsbD_eq fun i hi => ?_
  rw [BitVec.getLsbD_extractLsb', getLsbD_status_word_of_four_le t (by omega), if_neg (by omega), if_pos (by omega)]
  simp [hi]

/-- STATUS holds no bit above ERRPARAM (10 R25). -/
theorem extract_above_errparam (t : Status) : t.word.extractLsb' 12 20 = 0#20 := by
  refine BitVec.eq_of_getLsbD_eq fun i hi => ?_
  rw [BitVec.getLsbD_extractLsb', getLsbD_status_word_of_four_le t (by omega), if_neg (by omega), if_neg (by omega)]
  simp

/-- STATUS holds no reserved bit (10 R25, R40). -/
theorem status_word_and_reserved (t : Status) : t.word &&& ~~~0x00000FF7#32 = 0#32 := by
  have hmask : ∀ i < 32, i = 3 ∨ 12 ≤ i ∨ (~~~0x00000FF7#32).getLsbD i = false := by decide
  refine BitVec.eq_of_getLsbD_eq fun i hi => ?_
  rw [BitVec.getLsbD_and]
  obtain rfl | h | h := hmask i hi
  · rw [getLsbD_status_word]
    rfl
  · rw [getLsbD_status_word_of_four_le t (by omega), if_neg (by omega), if_neg (by omega),
      Bool.false_and, BitVec.getLsbD_zero]
  · rw [h, Bool.and_false, BitVec.getLsbD_zero]

/-! ### Command words -/

@[simp] theorem opcodeOf_and_cmdMask (w : Word) : opcodeOf (w &&& cmdMask) = opcodeOf w := by
  rw [opcodeOf, BitVec.extractLsb'_and, show cmdMask.extractLsb' 0 4 = BitVec.allOnes 4 by decide, BitVec.and_allOnes]
  rfl

@[simp] theorem padOf_and_cmdMask (w : Word) : padOf (w &&& cmdMask) = padOf w := by
  simp [padOf, cmdMask]

@[simp] theorem nullInOf_and_cmdMask (w : Word) : nullInOf (w &&& cmdMask) = nullInOf w := by
  simp [nullInOf, cmdMask]

/-- The four bytes of a word, put together again (20 R62). -/
theorem wordOfBytes_extract (w : Word) :
    wordOfBytes (w.extractLsb' 0 8) (w.extractLsb' 8 8) (w.extractLsb' 16 8) (w.extractLsb' 24 8) = w := by
  have h2 : w.extractLsb' 24 8 ++ w.extractLsb' 16 8 = w.extractLsb' 16 16 :=
    BitVec.extractLsb'_append_extractLsb'_eq_extractLsb' (by rfl)
  have h1 : w.extractLsb' 16 16 ++ w.extractLsb' 8 8 = w.extractLsb' 8 24 :=
    BitVec.extractLsb'_append_extractLsb'_eq_extractLsb' (by rfl)
  have h0 : w.extractLsb' 8 24 ++ w.extractLsb' 0 8 = w.extractLsb' 0 32 :=
    BitVec.extractLsb'_append_extractLsb'_eq_extractLsb' (by rfl)
  rw [wordOfBytes, h2, h1, h0, BitVec.extractLsb'_eq_self]

/-- The number of a register pair: the high word with its sign, the low word without (10 R33, R35). -/
theorem s64_pair64 (hi lo : Word) : s64 (pair64 hi lo) = hi.toInt * 2 ^ 32 + (lo.toNat : Int) := by
  change BitVec.toInt (n := 32 + 32) (hi ++ lo) = _
  rw [BitVec.toInt_append, if_neg (by decide), Int.mul_comm]

end Sys2Proof.Machine
end

section
/-! SUPPORT. What a command in flight can end with: which command the snapshot selects, how long its output is, and what
its success writes (30 R91; 40 R124, R133, R134; 41 R163; 10 R36 to R38, R43). -/

namespace Sys2Proof.Machine

/-! ### The command of an opcode -/

/-- The opcode map by rows: the four commands, and the opcodes that have none (30 R91). -/
theorem commandOf_cases (op : BitVec 4) (n p : Bool) :
    (op = 1#4 ∧ commandOf op n p = .b32dec n p) ∨ (op = 2#4 ∧ commandOf op n p = .b32enc n p) ∨
      (op = 3#4 ∧ commandOf op n p = .hotpgen n p) ∨ (op = 4#4 ∧ commandOf op n p = .totpcnt n p) ∨
      (op ∉ ([1#4, 2#4, 3#4, 4#4] : List (BitVec 4)) ∧
        ∀ S N m, commandOutcome (commandOf op n p) S N m = illegalCommand) := by
  by_cases h : op ∈ ([1#4, 2#4, 3#4, 4#4] : List (BitVec 4))
  · simp only [List.mem_cons, List.not_mem_nil, or_false] at h
    obtain rfl | rfl | rfl | rfl := h
    · exact .inl ⟨rfl, rfl⟩
    · exact .inr (.inl ⟨rfl, rfl⟩)
    · exact .inr (.inr (.inl ⟨rfl, rfl⟩))
    · exact .inr (.inr (.inr (.inl ⟨rfl, rfl⟩)))
  · refine .inr (.inr (.inr (.inr ⟨h, fun S N m => ?_⟩)))
    have hne : op.toNat ≠ 1 ∧ op.toNat ≠ 2 ∧ op.toNat ≠ 3 ∧ op.toNat ≠ 4 := by
      simp only [List.mem_cons, List.not_mem_nil, or_false, not_or, BitVec.toNat_eq] at h
      exact h
    unfold commandOf
    split <;> simp_all [commandOutcome]

theorem commandOutcome_illegal {op : BitVec 4} (h : op ∉ ([1#4, 2#4, 3#4, 4#4] : List (BitVec 4))) (n p : Bool)
    (S : Snapshot) (N : Nat) (m : Memory) : commandOutcome (commandOf op n p) S N m = illegalCommand := by
  obtain ⟨rfl, -⟩ | ⟨rfl, -⟩ | ⟨rfl, -⟩ | ⟨rfl, -⟩ | ⟨-, hall⟩ := commandOf_cases op n p
  · exact absurd h (by decide)
  · exact absurd h (by decide)
  · exact absurd h (by decide)
  · exact absurd h (by decide)
  · exact hall S N m

/-! ### The lengths of the outputs -/

theorem length_repack5to8From (acc nb : Nat) (vals : List (BitVec 5)) (h : nb < 8) :
    (repack5to8From acc nb vals).length = (nb + 5 * vals.length) / 8 := by
  induction vals generalizing acc nb with
  | nil => simp [repack5to8From, Nat.div_eq_of_lt h]
  | cons v vals ih =>
    simp only [repack5to8From]
    split
    · rw [List.length_cons, ih _ _ (by omega), List.length_cons]
      omega
    · rw [ih _ _ (by omega), List.length_cons]
      omega

@[simp] theorem length_repack5to8 (vals : List (BitVec 5)) :
    (repack5to8 vals).length = decodedLength vals.length := by
  simp [repack5to8, decodedLength, length_repack5to8From]

/-- Each round of the encoder's loop makes one character of five bits, the last one filled up (40 R132). -/
theorem length_repack8to5From (fuel acc nb : Nat) (d : List Byte) (h : nb + 8 * d.length ≤ 5 * fuel) :
    (repack8to5From fuel acc nb d).length = (nb + 8 * d.length + 4) / 5 := by
  induction fuel generalizing acc nb d with
  | zero => simp only [repack8to5From, List.length_nil]; omega
  | succ fuel ih =>
    simp only [repack8to5From]
    split
    · split
      · next b d =>
        rw [List.length_cons] at h
        rw [List.length_cons, ih _ _ _ (by omega), List.length_cons]
        omega
      · split
        · simp_all
        · rw [List.length_cons, ih _ _ _ (by simp)]
          simp only [List.length_nil]
          omega
    · rw [List.length_cons, ih _ _ _ (by omega)]
      omega

@[simp] theorem length_repack8to5 (d : List Byte) : (repack8to5 d).length = encodedLength d.length := by
  rw [repack8to5, length_repack8to5From _ _ _ _ (by omega), encodedLength, cdiv]
  congr 1
  omega

@[simp] theorem length_encodeText (pad : Bool) (d : List Byte) :
    (encodeText pad d).length = encodedLength d.length + padCount pad (encodedLength d.length) := by
  simp [encodeText]

@[simp] theorem length_decimalText (t d : Nat) : (decimalText t d).length = d := by simp [decimalText]

/-- The masked top bit leaves 31 bits (41 R163). -/
theorem truncate_lt (h : List Byte) : truncate h < 2 ^ 31 := by
  have hlow (b : Byte) (k : Nat) (hk : 8 + k ≤ 31) : b.toNat <<< k < 2 ^ 31 :=
    (Nat.shiftLeft_lt b.isLt).trans_le (Nat.pow_le_pow_right (by omega) hk)
  have htop (b : Byte) : (b &&& 0x7F#8).toNat <<< 24 < 2 ^ 31 :=
    Nat.shiftLeft_lt (n := 7) (by rw [BitVec.toNat_and]; exact Nat.and_lt_two_pow _ (by decide))
  exact Nat.or_lt_two_pow (Nat.or_lt_two_pow (Nat.or_lt_two_pow (htop _) (hlow _ 16 (by omega)))
    (hlow _ 8 (by omega))) (hlow _ 0 (by omega))

theorem hotpToken_lt (key : List Byte) (counter : DWord) (digits : Nat) : hotpToken key counter digits < 2 ^ 31 :=
  (Nat.mod_le _ _).trans_lt (truncate_lt _)

/-! ### Success -/

/-- What the command of a snapshot can write when it succeeds, in a block whose BUF has N bytes (10 R36 to R38, R43). -/
inductive SuccessWrites (S : Snapshot) (N : Nat) : CmdWrites → Prop where
  /-- B32DEC and B32ENC: a window of BUF and RES_LEN. -/
  | codec (out : List Byte) (op : S.op ∈ ([1#4, 2#4] : List (BitVec 4))) (fits : InBuf N (u32 S.dstAddr) out.length) :
    SuccessWrites S N { dst := u32 S.dstAddr, out, resLen := some (BitVec.ofNat 32 out.length), resToken := none,
                        resCnt := none }
  /-- HOTPGEN: a window of BUF, RES_LEN and RES_TOKEN. -/
  | token (out : List Byte) (tok : Nat) (op : S.op = 3#4) (fits : InBuf N (u32 S.dstAddr) out.length)
      (tok_lt : tok < 2 ^ 31) :
    SuccessWrites S N { dst := u32 S.dstAddr, out, resLen := some (BitVec.ofNat 32 out.length),
                        resToken := some (BitVec.ofNat 32 tok), resCnt := none }
  /-- TOTPCNT: RES_CNT. -/
  | counter (q : DWord) (op : S.op = 4#4) :
    SuccessWrites S N { dst := 0, out := [], resLen := none, resToken := none, resCnt := some q }

theorem successWrites_of_ok {S : Snapshot} {N : Nat} {m : Memory} {w : CmdWrites}
    (h : commandOutcome S.command S N m = .ok w) : SuccessWrites S N w := by
  unfold Snapshot.command at h
  obtain ⟨hop, hc⟩ | ⟨hop, hc⟩ | ⟨hop, hc⟩ | ⟨hop, hc⟩ | ⟨-, hc⟩ := commandOf_cases S.op S.nullIn S.pad
  · rw [hc] at h
    obtain ⟨-, -, text, vals, -, -, hfit, rfl⟩ := b32decCommand_ok h
    simpa using SuccessWrites.codec (repack5to8 vals) (by simp [hop]) (by simpa using hfit)
  · rw [hc] at h
    obtain ⟨-, -, -, -, -, -, hfit, d, hd, rfl⟩ := b32encCommand_ok h
    rw [← memRead_length hd] at hfit ⊢
    simpa using SuccessWrites.codec (encodeText S.pad d) (by simp [hop]) (by simpa using hfit)
  · rw [hc] at h
    obtain ⟨-, -, -, -, -, -, hfit, key, -, rfl⟩ := hotpgenCommand_ok h
    simpa using SuccessWrites.token (decimalText (hotpToken key S.counter (s32 S.digits).toNat) (s32 S.digits).toNat)
      (hotpToken key S.counter (s32 S.digits).toNat) hop (by simpa using hfit) (hotpToken_lt ..)
  · rw [hc] at h
    obtain ⟨-, rfl⟩ := totpcntCommand_ok h
    exact .counter _ hop
  · simp [hc, illegalCommand] at h

end Sys2Proof.Machine
end

section
/-! SUPPORT. What one step can do, as a case list: an admitted Host access, a completion, a reset, or waiting (10 R41 to
R44, 20 R71, 70 R220). The safety statements are read off it. -/

namespace Sys2Proof.Machine

/-! ### The step, by who moves -/

theorem step_core {s : State} (h : CoreNext s) : step s = coreTurn s.popInput := by
  obtain ⟨csr, buf, snap, params, inputs, responses, resets⟩ := s
  cases inputs with
  | nil => rfl
  | cons i rest =>
    obtain h | h := h
    · cases h
    · cases h
      rfl

theorem step_nil {s : State} (h : s.inputs = []) : step s = coreTurn s := by
  unfold step
  rw [h]

theorem step_host {s : State} {a : Access} {rest : List Input} (h : s.inputs = .host a :: rest) :
    step s = hostAccess a s.popInput := by
  unfold step
  rw [h]

theorem coreNext_of_inputs_eq_core {s : State} {rest : List Input} (h : s.inputs = .core :: rest) : CoreNext s :=
  .inr (by simp [h])

/-! ### Host accesses -/

/-- What the Host access a can do to the state s, its response aside. -/
inductive HostEffect (a : Access) (s : State) : State → Prop where
  /-- A read, a bus error, or a write that is ignored. -/
  | unchanged : HostEffect a s s
  | ctrl (w : Word) : HostEffect a s { s with csr := { s.csr with ctrl := Ctrl.ofWord w } }
  | status (w : Word) : HostEffect a s (clearDone w s)
  | accept (w : Word) (idle : s.csr.status.busy = false) (access : a = .write (s.params.blockBase + 0x00C) .w32 w) :
    HostEffect a s (accept w s)
  | operand (r : Reg) (w : Word) (idle : s.csr.status.busy = false) :
    HostEffect a s { s with csr := operandWrite w s.csr r }
  | buf (i : Nat) (bs : List Byte) (idle : s.csr.status.busy = false) (fits : i + bs.length ≤ s.params.bufBytes) :
    HostEffect a s { s with buf := memWrite s.buf i bs }

/-- An aligned access that starts in BUF ends in BUF (20 R63, R68). -/
theorem aligned_fits {p : Params} {i : Nat} {width : Width} (hw : width ≠ .wider) (hi : i < p.bufBytes)
    (ha : (0x10000 + i) % widthBytes width = 0) : i + widthBytes width ≤ p.bufBytes := by
  obtain ⟨hmod, -, -⟩ := bufBytes_facts p
  cases width with
  | wider => exact absurd rfl hw
  | w8 | w16 | w32 => simp only [widthBytes] at ha ⊢; omega

theorem hostEffect_csrWrite {addr : Nat} {r : Reg} {w : Word} {s : State}
    (h : addr = s.params.blockBase + regOffset r) : HostEffect (.write addr .w32 w) s (csrWrite r w s) := by
  obtain hc | ⟨-, hc⟩ | ⟨-, hc⟩ | ⟨rfl, hb, hc⟩ | ⟨hb, hc⟩ := csrWrite_cases r w s
  · rw [hc]
    exact .unchanged
  · exact hc ▸ .ctrl w
  · exact hc ▸ .status w
  · exact hc ▸ .accept w hb (by rw [h, regOffset])
  · exact hc ▸ .operand r w hb

/-- Everything an admitted Host access can do: it is answered, and has one of the effects (20 R71). -/
theorem hostEffect_of_next {a : Access} {s t : State} (h : hostAccess a s = .next t) :
    ∃ u r, HostEffect a s u ∧ t = respond r u := by
  obtain ⟨hfits, hrouted, rfl⟩ := hostAccess_eq_next.mp h
  cases a with
  | read addr width => exact ⟨s, _, .unchanged, rfl⟩
  | write addr width data =>
    refine ⟨_, _, ?_, rfl⟩
    obtain hw | ⟨r, hr, rfl, hw⟩ | ⟨i, hg, ha, hb, hw⟩ :=
      windowWrite_cases (windowOffset s.params addr) width data s
    · rw [hw]
      exact .unchanged
    · have hbase : s.params.blockBase ≤ addr := by
        simp only [Access.routed, Bool.and_eq_true, decide_eq_true_eq] at hrouted
        exact hrouted.1
      have haddr : addr = s.params.blockBase + regOffset r := by
        rw [regOffset_of_regAt hr, windowOffset]
        omega
      exact hw ▸ hostEffect_csrWrite haddr
    · obtain ⟨hoff, hi⟩ := regionOf_eq_buf hg
      have hne : width ≠ .wider := of_decide_eq_true hfits
      exact hw ▸ .buf i _ hb (by simpa using aligned_fits hne hi (hoff ▸ ha))

/-! ### Steps -/

/-- What a step that answers next can have done to the state s. -/
inductive StepEffect (s : State) : State → Prop where
  | wait (core : CoreNext s) (idle : s.csr.status.busy = false) : StepEffect s s.popInput
  | success (w : CmdWrites) (core : CoreNext s) (busy : s.csr.status.busy = true)
      (writes : SuccessWrites s.snap s.params.bufBytes w) : StepEffect s (completeOk w s.popInput)
  | failure (code : ErrCode) (param : ErrParam) (core : CoreNext s) (busy : s.csr.status.busy = true)
      (code_ne : code ≠ .noError) (used : param.usedWith code = true) : StepEffect s (completeErr code param s.popInput)
  | reset (next : s.inputs.head? = some .reset) : StepEffect s (resetBlock s.popInput)
  | host (a : Access) (rest : List Input) (r : BusResponse) (u : State) (next : s.inputs = .host a :: rest)
      (effect : HostEffect a s.popInput u) : StepEffect s (respond r u)

theorem stepEffect_of_coreTurn {s t : State} (hc : CoreNext s) (h : coreTurn s.popInput = .next t) :
    StepEffect s t := by
  cases hb : s.csr.status.busy with
  | false =>
    rw [coreTurn_idle (by simpa using hb)] at h
    cases h
    exact .wait hc hb
  | true =>
    rw [coreTurn_busy (by simpa using hb), exec_eq_complete] at h
    obtain ⟨w, ho, rfl⟩ | ⟨code, param, ho, rfl⟩ := complete_eq_next.mp h
    · exact .success w hc hb (successWrites_of_ok ho)
    · obtain ⟨hne, hused⟩ := commandOutcome_err ho
      exact .failure code param hc hb hne hused

theorem stepEffect_of_next {s t : State} (h : step s = .next t) : StepEffect s t := by
  obtain ⟨hi, -⟩ | ⟨rest, hi, ht⟩ | ⟨rest, hi, rfl⟩ | ⟨a, rest, hi, ht⟩ := step_cases h
  · exact stepEffect_of_coreTurn (.inl hi) (step_core (.inl hi) ▸ h)
  · exact stepEffect_of_coreTurn (coreNext_of_inputs_eq_core hi) ht
  · exact .reset (by simp [hi])
  · obtain ⟨u, r, hu, rfl⟩ := hostEffect_of_next ht
    exact .host a rest r u hi hu

end Sys2Proof.Machine
end

section
/-! PROOFS. The block's invariant: every operation keeps it, so every step does (10 R25, R26, R36, R37, R40, R45). -/

namespace Sys2Proof.Machine

/-- The invariant speaks of the registers, BUF, the snapshot and the parameters alone. -/
theorem BlockInv.of_eq {s t : State} (h : BlockInv s) (hcsr : t.csr = s.csr) (hbuf : t.buf = s.buf)
    (hsnap : t.snap = s.snap) (hparams : t.params = s.params) : BlockInv t := by
  obtain ⟨csr, buf, snap, params, inputs, responses, resets⟩ := t
  subst hcsr hbuf hsnap hparams
  exact { h with }

theorem BlockInv.popInput {s : State} (h : BlockInv s) : BlockInv s.popInput := h.of_eq rfl rfl rfl rfl

theorem BlockInv.respond {s : State} (h : BlockInv s) (r : BusResponse) : BlockInv (respond r s) :=
  h.of_eq rfl rfl rfl rfl

theorem BlockInv.resetBlock (s : State) : BlockInv (resetBlock s) where
  bufCanonical := List.Pairwise.nil
  bufInRange := by simp
  cmdMasked := by simp [Csr.reset]
  busyStatus := by simp [Csr.reset]
  errIffCode := by simp [Csr.reset]
  paramMatches := rfl
  snapIsCmd := by simp [Csr.reset]
  tokenRange := by simp [Csr.reset]
  lenRange := by simp [Csr.reset]

theorem BlockInv.ctrl {s : State} (h : BlockInv s) (c : Ctrl) :
    BlockInv { s with csr := { s.csr with ctrl := c } } := { h with }

/-- Clearing DONE does nothing to acceptance's STATUS, whose DONE is 0. -/
theorem BlockInv.clearDone {s : State} (h : BlockInv s) (w : Word) : BlockInv (clearDone w s) :=
  { h with busyStatus := fun hb => by rw [clearDone_csr_status, h.busyStatus hb]; rfl }

theorem BlockInv.accept {s : State} (h : BlockInv s) (w : Word) : BlockInv (accept w s) :=
  { h with
    cmdMasked := by simp [BitVec.and_assoc]
    busyStatus := fun _ => rfl
    errIffCode := by simp
    paramMatches := rfl
    snapIsCmd := fun _ => by simp [decodeWord, Snapshot.command, latch] }

theorem BlockInv.operand {s : State} (h : BlockInv s) (r : Reg) (w : Word) :
    BlockInv { s with csr := operandWrite w s.csr r } where
  bufCanonical := h.bufCanonical
  bufInRange := h.bufInRange
  cmdMasked := by simpa using h.cmdMasked
  busyStatus := by simpa using h.busyStatus
  errIffCode := by simpa using h.errIffCode
  paramMatches := by simpa using h.paramMatches
  snapIsCmd := by simpa using h.snapIsCmd
  tokenRange := by simpa using h.tokenRange
  lenRange := by simpa using h.lenRange

/-- A window write inside BUF keeps BUF canonical and inside its bounds (10 R45, R48). -/
theorem bufInRange_memWrite {N i : Nat} {m : Memory} {bs : List Byte} (hm : ∀ c ∈ m, c.1 < N)
    (hfits : InBuf N i bs.length) : ∀ c ∈ memWrite m i bs, c.1 < N := by
  intro c hc
  obtain hc | ⟨h1, h2⟩ := mem_memWrite hc
  · exact hm c hc
  · omega

theorem BlockInv.buf {s : State} (h : BlockInv s) {i : Nat} {bs : List Byte}
    (hfits : InBuf s.params.bufBytes i bs.length) : BlockInv { s with buf := memWrite s.buf i bs } :=
  { h with
    bufCanonical := memWrite_wf i bs h.bufCanonical
    bufInRange := bufInRange_memWrite h.bufInRange hfits }

theorem BlockInv.completeErr {s : State} (h : BlockInv s) {code : ErrCode} {param : ErrParam} (hne : code ≠ .noError)
    (hused : param.usedWith code = true) : BlockInv (completeErr code param s) :=
  { h with
    busyStatus := by simp
    errIffCode := by simp [hne]
    paramMatches := hused
    snapIsCmd := by simp }

/-- A length that fits in BUF is its own 32-bit reading (00 R7). -/
theorem toNat_ofNat_of_inBuf {p : Params} {a n : Nat} (h : InBuf p.bufBytes a n) : (BitVec.ofNat 32 n).toNat = n := by
  obtain ⟨-, -, hmax⟩ := bufBytes_facts p
  rw [BitVec.toNat_ofNat, Nat.mod_eq_of_lt (by omega)]

theorem SuccessWrites.inBuf {S : Snapshot} {N : Nat} {w : CmdWrites} (hw : SuccessWrites S N w) :
    InBuf N w.dst w.out.length := by
  cases hw with
  | codec _ _ fits | token _ _ _ fits => exact fits
  | counter => exact .inl rfl

/-- RES_LEN stays within BUF (10 R36). -/
theorem SuccessWrites.resLen_le {S : Snapshot} {p : Params} {w : CmdWrites} (hw : SuccessWrites S p.bufBytes w)
    {v : Word} (hv : v.toNat ≤ p.bufBytes) : (w.resLen.getD v).toNat ≤ p.bufBytes := by
  cases hw with
  | codec _ _ fits | token _ _ _ fits =>
    rw [Option.getD_some, toNat_ofNat_of_inBuf fits]
    omega
  | counter => exact hv

/-- RES_TOKEN stays below 2^31 (10 R37). -/
theorem SuccessWrites.resToken_lt {S : Snapshot} {N : Nat} {w : CmdWrites} (hw : SuccessWrites S N w) {v : Word}
    (hv : v.toNat < 2 ^ 31) : (w.resToken.getD v).toNat < 2 ^ 31 := by
  cases hw with
  | codec | counter => exact hv
  | token _ tok _ _ tok_lt =>
    rw [Option.getD_some, BitVec.toNat_ofNat]
    exact (Nat.mod_le _ _).trans_lt tok_lt

theorem BlockInv.completeOk {s : State} (h : BlockInv s) {S : Snapshot} {w : CmdWrites}
    (hw : SuccessWrites S s.params.bufBytes w) : BlockInv (completeOk w s) where
  bufCanonical := memWrite_wf _ _ h.bufCanonical
  bufInRange := bufInRange_memWrite h.bufInRange hw.inBuf
  cmdMasked := h.cmdMasked
  busyStatus := by simp
  errIffCode := by simp
  paramMatches := rfl
  snapIsCmd := by simp
  tokenRange := hw.resToken_lt h.tokenRange
  lenRange := hw.resLen_le h.lenRange

theorem BlockInv.hostEffect {a : Access} {s u : State} (h : BlockInv s) (he : HostEffect a s u) : BlockInv u := by
  cases he with
  | unchanged => exact h
  | ctrl w => exact h.ctrl _
  | status w => exact h.clearDone w
  | accept w => exact h.accept w
  | operand r w => exact h.operand r w
  | buf i bs _ fits => exact h.buf (.inr fits)

/-- Settles O26: every effect a step can have keeps the invariant. -/
theorem stepKeepsTheInvariant : Obligations.StepKeepsTheInvariant := by
  intro s t h hstep
  cases stepEffect_of_next hstep with
  | wait => exact h.popInput
  | success w _ _ writes => exact h.popInput.completeOk writes
  | failure code param _ _ code_ne used => exact h.popInput.completeErr code_ne used
  | reset => exact .resetBlock _
  | host a rest r u _ effect => exact (h.popInput.hostEffect effect).respond r

end Sys2Proof.Machine
end

section
/-! PROOFS. The registers, acceptance and the lock while BUSY, seen through the window (10 R22 to R41, R44). -/

namespace Sys2Proof.Machine

/-- Settles O6: each offset of the map is a register's, and a read of a register answers with it. -/
theorem registerMapReads : Obligations.RegisterMapReads := fun s =>
  ⟨windowRead_reg .id s, windowRead_reg .ctrl s, windowRead_reg .status s, windowRead_reg .cmd s,
    windowRead_reg .srcAddr s, windowRead_reg .srcLen s, windowRead_reg .dstAddr s, windowRead_reg .offset s,
    windowRead_reg .length s, windowRead_reg .digits s, windowRead_reg .counterLo s, windowRead_reg .counterHi s,
    windowRead_reg .epoch s, windowRead_reg .step s, windowRead_reg .nowLo s, windowRead_reg .nowHi s,
    windowRead_reg .resLen s, windowRead_reg .resToken s, windowRead_reg .resCntLo s, windowRead_reg .resCntHi s,
    windowRead_reg .bufSize s⟩

/-- Settles O7, by the kind of register: operand, CTRL, read-only. -/
theorem registerWritesReachOneRegister : Obligations.RegisterWritesReachOneRegister := by
  intro s r w
  rw [windowWrite_reg]
  refine ⟨rfl, ?operand, ?ctrl, fun hr => csrWrite_readOnly hr w s⟩
  case operand =>
    intro hb hlo hhi
    refine ⟨operandWrite w s.csr r, csrWrite_operand_idle ⟨hlo, hhi⟩ hb w, ?_, ?_, by simp, by simp⟩
    · rw [csrRead_operandWrite, if_pos ⟨rfl, hlo, hhi⟩]
    · intro r' hne
      rw [csrRead_operandWrite, if_neg fun h => hne h.1]
  case ctrl =>
    rintro rfl
    exact ⟨Ctrl.ofWord w, rfl, rfl, rfl, ctrl_word_ofWord w⟩

/-- A Host access never raises DONE (10 R25). -/
theorem HostEffect.done_le {a : Access} {s u : State} (he : HostEffect a s u) (h : s.csr.status.done = false) :
    u.csr.status.done = false := by
  cases he <;> simp [h]

/-- DONE rises by completion alone (10 R25). -/
theorem done_rises_by_completion {s t : State} (h : step s = .next t) (h0 : s.csr.status.done = false)
    (h1 : t.csr.status.done = true) : CoreNext s ∧ s.csr.status.busy = true := by
  cases stepEffect_of_next h with
  | wait => simp [h0] at h1
  | success _ core busy | failure _ _ core busy => exact ⟨core, busy⟩
  | reset => simp [Csr.reset] at h1
  | host a rest r u _ effect => simp [effect.done_le h0] at h1

/-- A 32-bit Host read of a register is one step, which answers with the register (20 R65, R71). -/
theorem step_read_reg {s t : State} {r : Reg} {rest : List Input}
    (hi : s.inputs = .host (.read (s.params.blockBase + regOffset r) .w32) :: rest) (h : step s = .next t) :
    t = { s with inputs := rest, responses := .readOk (csrRead s.params s.csr r) :: s.responses } := by
  rw [step_host hi] at h
  obtain ⟨-, -, rfl⟩ := hostAccess_eq_next.mp h
  have hoff : windowOffset s.params (s.params.blockBase + regOffset r) = regOffset r := by simp [windowOffset]
  simp only [accessWindow, hoff, windowRead_reg, respond, State.popInput, hi, List.tail_cons]

/-- Settles O8: the layout bit by bit, each writer of STATUS by its rule, DONE and the read by the lemmas on steps. -/
theorem statusFieldsFollowTheirRule : Obligations.StatusFieldsFollowTheirRule := by
  refine ⟨?layout, ?hostWrite, fun s w => ?acceptance, fun s w => ?success, fun _ _ _ => rfl,
    fun _ _ => done_rises_by_completion, ?read⟩
  case layout =>
    intro t
    refine ⟨?_, ?_, ?_, ?_, extract_errcode t, extract_errparam t, extract_above_errparam t⟩ <;>
      rw [getLsbD_status_word] <;> rfl
  case hostWrite =>
    intro s w
    have hdone : (s.csr.status.done && !w.getLsbD 1) = if w.getLsbD 1 then false else s.csr.status.done := by
      cases w.getLsbD 1 <;> simp
    rw [show 0x008 = regOffset .status by rfl, windowWrite_reg, ← hdone]
    rfl
  case acceptance =>
    rw [accept_csr_status]
    rfl
  case success =>
    rw [completeOk_csr_status]
    rfl
  case read =>
    rintro s _ rest t hi rfl h
    exact step_read_reg (r := .status) hi h

/-- A command in flight whose OPCODE has no command completes with ILLEGAL_CMD(OPCODE) (30 R94, 60 R190). -/
theorem coreTurn_illegal {s : State} (hb : s.csr.status.busy = true)
    (hop : s.snap.op ∉ ([1#4, 2#4, 3#4, 4#4] : List (BitVec 4))) :
    coreTurn s = .next (completeErr .illegalCmd .opcode s) := by
  rw [coreTurn_busy hb, exec_eq_complete, Snapshot.command, commandOutcome_illegal hop, illegalCommand, complete_err]

/-- Settles O9: the state after the write is accept's. -/
theorem acceptanceLatchesTheSnapshot : Obligations.AcceptanceLatchesTheSnapshot := by
  intro s w hb
  have hwrite : windowWrite (regOffset .cmd) .w32 w s = (accept w s, .writeOk) := by
    rw [windowWrite_reg, csrWrite_cmd_idle hb]
  exact ⟨accept w s, hwrite, rfl, rfl, rfl, rfl, rfl, rfl, rfl, rfl, rfl, rfl, s64_pair64 .., rfl, rfl,
    s64_pair64 .., rfl, rfl, rfl, rfl, rfl, rfl, fun hop => coreTurn_illegal rfl hop⟩

/-- Settles O10, by the target of the access: operand, CMD, BUF, CTRL, STATUS, read-only. -/
theorem busyLocksOperandsCommandAndBuffer : Obligations.BusyLocksOperandsCommandAndBuffer := by
  intro s hb
  refine ⟨?operand, ?cmd, fun i width data hi _ ha => window_buf_busy hb hi ha data, fun r => windowRead_reg r s,
    fun w => windowWrite_reg .ctrl w s, fun w => ⟨_, windowWrite_reg .status w s, rfl⟩, ?readOnly⟩
  case operand =>
    intro r w hlo hhi
    rw [windowWrite_reg, csrWrite_operand_busy ⟨hlo, hhi⟩ hb]
  case cmd =>
    intro w
    rw [show 0x00C = regOffset .cmd by rfl, windowWrite_reg, csrWrite_cmd_busy hb]
  case readOnly =>
    intro r w hr
    rw [windowWrite_reg, csrWrite_readOnly hr]

/-- Acceptance ignores the reserved bits of the command word (10 R40, 30 R94). -/
theorem accept_and_cmdMask (w : Word) (s : State) : accept (w &&& cmdMask) s = accept w s := by
  simp [accept, latch, BitVec.and_assoc]

/-- Settles O11: the offsets behind the map have no register, and each register's mask is dropped by its write. -/
theorem reservedReadsZeroAndIgnoresWrites : Obligations.ReservedReadsZeroAndIgnoresWrites := by
  intro s
  refine ⟨fun off w hlo hhi ha => window_reserved_csr (by omega) (by omega) ha w s, ctrl_word_and_reserved _,
    status_word_and_reserved _, ?cmdRead, ?ctrlWrite, ?statusWrite, ?cmdWrite⟩
  case cmdRead =>
    intro hmask
    rw [csrRead, ← hmask, BitVec.and_assoc, show cmdMask &&& ~~~0x0000030F#32 = 0#32 by decide, BitVec.and_zero]
  case ctrlWrite =>
    intro w
    simp [csrWrite, Ctrl.ofWord]
  case statusWrite =>
    intro w
    simp [csrWrite, clearDone, Status.hostWrite]
  case cmdWrite =>
    intro w
    simp only [csrWrite]
    rw [show 0x0000030F#32 = cmdMask by rfl, accept_and_cmdMask]

end Sys2Proof.Machine
end

section
/-! PROOFS. The step and its effects on BUSY and the results, and what a command's outcome depends on (10 R42 to R44;
20 R74; 41 R151; 60 R195, R201). -/

namespace Sys2Proof.Machine

/-! ### The Core's turn -/

@[simp] theorem decode_bytesOfWord (w : Word) : decode (bytesOfWord w) = .ok (decodeWord w, []) := by
  rw [bytesOfWord, decode, wordOfBytes_extract]

/-- The command acceptance puts in flight is the one the word decodes to (10 R41, 30 R91). -/
theorem accept_command (w : Word) (s : State) : (accept w s).snap.command = decodeWord w := rfl

theorem step_core_busy {s : State} (hc : CoreNext s) (hb : s.csr.status.busy = true) :
    step s = exec s.snap.command s.popInput := by
  rw [step_core hc, coreTurn_busy (by simpa using hb), popInput_snap]

/-- Settles O17: acceptance latches the decoded command, and the Core's turn runs the latched one. -/
theorem stepRunsTheDecodedCommand : Obligations.StepRunsTheDecodedCommand := by
  refine ⟨?inFlight, ?acceptance, ?fetch⟩
  case inFlight =>
    rintro s _ hc hb rfl
    exact step_core_busy hc hb
  case acceptance =>
    intro s w b0 b1 b2 b3 i hbytes hdec _
    rw [← hbytes, decode_bytesOfWord] at hdec
    cases hdec
    exact accept_command w s
  case fetch =>
    intro s w i hi
    have hword : decodeWord (tableWord 32 w) = i := by simpa [decodeTableWord] using hi
    have hc : CoreNext (s.withFetchWord 32 w) := coreNext_of_inputs_eq_core (withFetchWord_inputs s 32 w)
    rw [step_core_busy hc rfl, ← hword]
    rfl

/-- Settles O18: the Core's turn is the identity while IDLE. -/
theorem idleBlockWaits : Obligations.IdleBlockWaits := by
  intro s hc hb
  rw [step_core hc, coreTurn_idle (by simpa using hb)]
  rfl

/-! ### BUSY and the results -/

/-- Settles O19, by the effects of a step. -/
theorem busyChangesOnlyByAcceptanceCompletionOrReset : Obligations.BusyChangesOnlyByAcceptanceCompletionOrReset := by
  intro s t h
  cases stepEffect_of_next h with
  | wait => simp_all
  | success _ core busy => simp [busy, core]
  | failure _ _ core busy => simp [busy, core]
  | reset next => simp [Csr.reset, next]
  | host a rest r u next effect =>
    cases effect with
    | accept w idle access =>
      refine ⟨fun _ _ => ⟨_, w, rest, access ▸ next, rfl, rfl, rfl⟩, fun hb => ?_⟩
      exact absurd hb (by simpa using idle)
    | unchanged | ctrl | status | operand | buf => simp_all

/-- A Host access changes no result register (10 R44). -/
theorem HostEffect.results {a : Access} {s u : State} (he : HostEffect a s u) :
    u.csr.resLen = s.csr.resLen ∧ u.csr.resToken = s.csr.resToken ∧ u.csr.resCntLo = s.csr.resCntLo ∧
      u.csr.resCntHi = s.csr.resCntHi := by
  cases he <;> simp

/-- Settles O20, by the effects of a step and what a success writes. -/
theorem resultsChangeOnlyAtTheirCompletion : Obligations.ResultsChangeOnlyAtTheirCompletion := by
  intro s t h hreset
  cases stepEffect_of_next h with
  | wait => simp
  | success w core busy writes =>
    cases writes with
    | codec out op => exact ⟨fun _ => ⟨core, busy, rfl, List.mem_append_left [3#4] op⟩, by simp, by simp⟩
    | token out tok op => simp [core, busy, op]
    | counter q op => simp [core, busy, op]
  | failure => simp
  | reset next => exact absurd next hreset
  | host a rest r u _ effect =>
    obtain ⟨h1, h2, h3, h4⟩ := effect.results
    simp [h1, h2, h3, h4]

/-! ### A command in flight and the Host -/

/-- The same command is in flight in s and u, which differ at most in CTRL, STATUS and the model's own lists. -/
structure SameCommand (s u : State) : Prop where
  busy   : u.csr.status.busy = true
  csr    : ∃ c t, u.csr = { s.csr with ctrl := c, status := t }
  buf    : u.buf = s.buf
  snap   : u.snap = s.snap
  params : u.params = s.params
  resets : u.resets = s.resets

theorem SameCommand.trans {s u v : State} (h : SameCommand s u) (h' : SameCommand u v) : SameCommand s v where
  busy := h'.busy
  csr := by
    obtain ⟨c, t, hu⟩ := h.csr
    obtain ⟨c', t', hv⟩ := h'.csr
    exact ⟨c', t', by rw [hv, hu]⟩
  buf := h'.buf.trans h.buf
  snap := h'.snap.trans h.snap
  params := h'.params.trans h.params
  resets := h'.resets.trans h.resets

/-- While BUSY a Host access reaches CTRL and DONE alone (10 R44). -/
theorem HostEffect.sameCommand {a : Access} {s u : State} (he : HostEffect a s u) (hb : s.csr.status.busy = true) :
    SameCommand s u ∧ u.inputs = s.inputs := by
  cases he with
  | unchanged | ctrl | status => exact ⟨⟨hb, ⟨_, _, rfl⟩, rfl, rfl, rfl, rfl⟩, rfl⟩
  | accept _ idle | operand _ _ idle | buf _ _ idle => simp [hb] at idle

/-- An admitted Host access while BUSY is a step that leaves the same command in flight. -/
theorem step_host_busy {s : State} {a : Access} {rest : List Input} (hi : s.inputs = .host a :: rest)
    (hwf : a.wellFormed s.params = true) (hb : s.csr.status.busy = true) :
    ∃ u, step s = .next u ∧ SameCommand s u ∧ u.inputs = rest := by
  obtain ⟨hrouted, hfits⟩ := Bool.and_eq_true_iff.mp hwf
  have hnext : hostAccess a s.popInput = .next (accessWindow a s.popInput) :=
    hostAccess_eq_next.mpr ⟨hfits, hrouted, rfl⟩
  obtain ⟨u, r, he, hu⟩ := hostEffect_of_next hnext
  obtain ⟨hsame, hinputs⟩ := he.sameCommand hb
  refine ⟨respond r u, by rw [step_host hi, hnext, hu], ?_, by simp [hinputs, hi]⟩
  exact { hsame with }

/-- Behind any number of admitted Host accesses the same command is in flight, and the Core moves (log entry 1). -/
theorem run_hosts_busy {s : State} (hb : s.csr.status.busy = true)
    (hin : ∀ i ∈ s.inputs, ∃ a : Access, i = .host a ∧ a.wellFormed s.params = true) :
    ∃ u, SameCommand s u ∧ u.inputs = [] ∧ Host.Core.run Sys2Proof.core (s.inputs.length + 1) s = step u := by
  generalize hl : s.inputs = l at hin
  induction l generalizing s with
  | nil => exact ⟨s, ⟨hb, ⟨_, _, rfl⟩, rfl, rfl, rfl, rfl⟩, hl, run_one s⟩
  | cons i rest ih =>
    obtain ⟨a, rfl, hwf⟩ := hin i (List.mem_cons_self ..)
    obtain ⟨v, hv, hsame, hrest⟩ := step_host_busy hl hwf hb
    obtain ⟨u, hu, hnil, hrun⟩ := ih hsame.busy hrest fun i hi => by
      rw [hsame.params]
      exact hin i (List.mem_cons_of_mem _ hi)
    exact ⟨u, hsame.trans hu, hnil, (run_succ_of_next _ hv).trans hrun⟩

/-- Two completions with one outcome, from states with the same command in flight, differ in CTRL and the model's own
lists alone (10 R43). -/
theorem SameCommand.complete {s u t : State} (h : SameCommand s u) {o : CmdOutcome} (ht : complete o s = .next t) :
    ∃ v, complete o u = .next v ∧ v.buf = t.buf ∧ v.snap = t.snap ∧ v.params = t.params ∧ v.inputs = u.inputs ∧
      v.resets = t.resets ∧ v.csr = { t.csr with ctrl := v.csr.ctrl } := by
  obtain ⟨c, st, hcsr⟩ := h.csr
  obtain ⟨w, rfl, rfl⟩ | ⟨code, param, rfl, rfl⟩ := complete_eq_next.mp ht
  · refine ⟨completeOk w u, complete_ok w u, by simp [h.buf], h.snap, h.params, rfl, h.resets, ?_⟩
    simp [completeOk, CmdWrites.applyRegs, hcsr]
  · refine ⟨completeErr code param u, complete_err code param u, h.buf, h.snap, h.params, rfl, h.resets, ?_⟩
    simp [completeErr, hcsr]

/-- Settles O24: the accesses leave the same command in flight, and its outcome reads nothing they can change. -/
theorem hostCannotDisturbTheCommandInFlight : Obligations.HostCannotDisturbTheCommandInFlight := by
  intro s t hb hin ht
  obtain ⟨u, hsame, hnil, hrun⟩ := run_hosts_busy hb hin
  have hsame' : SameCommand { s with inputs := [] } u := { hsame with }
  rw [step_nil rfl, coreTurn_busy (by exact hb), exec_eq_complete] at ht
  obtain ⟨v, hv, hbuf, hsnap, hparams, hinputs, hresets, hcsr⟩ := hsame'.complete ht
  have hstep : step u = .next v := by
    rw [step_nil hnil, coreTurn_busy hsame.busy, exec_eq_complete, hsame.snap, hsame.params, hsame.buf]
    exact hv
  exact ⟨v, hrun.trans hstep, hbuf, hsnap, hparams, hinputs.trans hnil, hresets, hcsr⟩

/-! ### What an outcome depends on -/

/-- A window read depends on the bytes of its window alone. -/
theorem memRead_congr {m m' : Memory} {a n : Nat} (h : ∀ i, a ≤ i → i < a + n → readByte? m i = readByte? m' i) :
    memRead m a n = memRead m' a n := by
  induction n generalizing a with
  | zero => rfl
  | succ n ih =>
    rw [memRead, memRead, h a (by omega) (by omega), ih fun i h1 h2 => h i (by omega) (by omega)]

/-- A command's outcome depends on its snapshot and the bytes of its input window alone (10 R43, 41 R151). -/
theorem commandOutcome_congr {S : Snapshot} {N : Nat} {m m' : Memory}
    (h : ∀ i, (inputWindow S).1 ≤ i → i < (inputWindow S).1 + (inputWindow S).2 → readByte? m i = readByte? m' i) :
    commandOutcome S.command S N m = commandOutcome S.command S N m' := by
  have hread := memRead_congr h
  unfold inputWindow at hread
  unfold Snapshot.command at hread ⊢
  obtain ⟨-, hc⟩ | ⟨-, hc⟩ | ⟨-, hc⟩ | ⟨-, hc⟩ | ⟨-, hc⟩ := commandOf_cases S.op S.nullIn S.pad
  · rw [hc] at hread ⊢
    simp only [commandOutcome, b32decCommand, hread]
  · rw [hc] at hread ⊢
    simp only [commandOutcome, b32encCommand, hread]
  · rw [hc] at hread ⊢
    simp only [commandOutcome, hotpgenCommand, hread]
  · rw [hc]
    rfl
  · rw [hc, hc]

/-- One output written into two memories is the same in both, byte by byte (20 R67). -/
theorem readByte?_memWrite_congr {m m' : Memory} {a i : Nat} {out : List Byte} (h1 : a ≤ i) (h2 : i < a + out.length) :
    readByte? (memWrite m' a out) i = readByte? (memWrite m a out) i ∧
      (readByte? (memWrite m a out) i).isSome = true := by
  rw [readByte?_memWrite, readByte?_memWrite, if_pos ⟨h1, h2⟩, if_pos ⟨h1, h2⟩]
  refine ⟨rfl, ?_⟩
  simp
  omega

/-- Settles O38: the command functions agree, so both blocks take the same completion. -/
theorem outcomeDependsOnlyOnSnapshotAndInput : Obligations.OutcomeDependsOnlyOnSnapshotAndInput := by
  intro s s' t hsnap hN hagree h
  rw [exec_eq_complete] at h
  have hout := commandOutcome_congr (N := s.params.bufBytes) hagree
  rw [exec_eq_complete, ← hsnap, ← hN, ← hout]
  obtain ⟨w, ho, rfl⟩ | ⟨code, param, ho, rfl⟩ := complete_eq_next.mp h
  · refine ⟨completeOk w s', by rw [ho, complete_ok], rfl, fun _ => ?_⟩
    have hbytes : ∀ a, w.dst ≤ a → a < w.dst + w.out.length →
        readByte? (completeOk w s').buf a = readByte? (completeOk w s).buf a ∧
          (readByte? (completeOk w s).buf a).isSome = true := fun a => readByte?_memWrite_congr
    cases successWrites_of_ok ho with
    | codec out op fits =>
      refine ⟨fun _ => ⟨rfl, ?_⟩, fun h3 => absurd op (by simp [h3]), fun h4 => absurd op (by simp [h4])⟩
      simpa [toNat_ofNat_of_inBuf fits] using hbytes
    | token out tok op fits =>
      refine ⟨fun _ => ⟨rfl, ?_⟩, fun _ => rfl, fun h4 => absurd (op.symm.trans h4) (by decide)⟩
      simpa [toNat_ofNat_of_inBuf fits] using hbytes
    | counter q op => simp [op]
  · refine ⟨completeErr code param s', by rw [ho, complete_err], rfl, fun herr => ?_⟩
    cases herr

end Sys2Proof.Machine
end

section
/-! SUPPORT. Data lanes and BUF: how bytes stand in a word, and what an aligned access to BUF does while IDLE (20 R60 to
R65, log entry 7). -/

namespace Sys2Proof.Machine

/-! ### Data lanes -/

/-- Lane k of a word is its byte at bit 8 * k (20 R62). -/
theorem getElem?_lanesOfWord {n k : Nat} (w : Word) (h : k < n) :
    (lanesOfWord w n)[k]? = some (w.extractLsb' (8 * k) 8) := by
  induction n generalizing w k with
  | zero => omega
  | succ n ih =>
    cases k with
    | zero => rw [lanesOfWord, List.getElem?_cons_zero, BitVec.setWidth_eq_extractLsb' (by omega), Nat.mul_zero]
    | succ k =>
      rw [lanesOfWord, List.getElem?_cons_succ, ih _ (by omega)]
      refine congrArg some (BitVec.eq_of_getLsbD_eq fun i hi => ?_)
      rw [BitVec.getLsbD_extractLsb', BitVec.getLsbD_extractLsb', BitVec.getLsbD_ushiftRight]
      congr 2
      omega

/-- A byte put before the others takes the lowest lane, and moves them up by one (20 R62). -/
theorem wordOfLanes_cons {n : Nat} {x : BitVec n} (b : Byte) {bs : List Byte} (h : wordOfLanes bs = x.setWidth 32) :
    wordOfLanes (b :: bs) = (x ++ b).setWidth 32 := by
  refine BitVec.eq_of_getLsbD_eq fun i hi => ?_
  rw [wordOfLanes, h, BitVec.getLsbD_or, BitVec.getLsbD_shiftLeft, BitVec.getLsbD_setWidth, BitVec.getLsbD_setWidth,
    BitVec.getLsbD_setWidth, BitVec.getLsbD_append]
  by_cases h8 : i < 8
  · simp [h8]
  · simp [h8, hi, show i - 8 < 32 by omega, BitVec.getLsbD_of_ge b i (by omega)]

theorem wordOfLanes_one (b0 : Byte) : wordOfLanes [b0] = 0#24 ++ b0 :=
  (wordOfLanes_cons b0 (x := 0#24) rfl).trans (BitVec.setWidth_eq _)

theorem wordOfLanes_two (b0 b1 : Byte) : wordOfLanes [b0, b1] = 0#16 ++ b1 ++ b0 :=
  (wordOfLanes_cons b0 (wordOfLanes_cons b1 (x := 0#16) rfl)).trans (BitVec.setWidth_eq _)

theorem wordOfLanes_four (b0 b1 b2 b3 : Byte) : wordOfLanes [b0, b1, b2, b3] = b3 ++ b2 ++ b1 ++ b0 :=
  have h3 : wordOfLanes [b3] = b3.setWidth 32 := by simp [wordOfLanes]
  (wordOfLanes_cons b0 (wordOfLanes_cons b1 (wordOfLanes_cons b2 h3))).trans (BitVec.setWidth_eq _)

theorem extractLsb'_second_byte (b0 b1 b2 b3 : Byte) : (b3 ++ b2 ++ b1 ++ b0).extractLsb' 8 8 = b1 := by
  rw [BitVec.extractLsb'_append_eq_of_le (by omega), BitVec.extractLsb'_append_eq_of_add_le (by omega), Nat.sub_self,
    BitVec.extractLsb'_eq_self]

/-! ### Aligned accesses to BUF while IDLE -/

/-- BUF starts at a multiple of every width, so an offset in BUF is aligned where its index is (20 R60, R63). -/
theorem bufOffset_aligned {i : Nat} {width : Width} (ha : i % widthBytes width = 0) :
    (0x10000 + i) % widthBytes width = 0 := by
  cases width <;> simp only [widthBytes] at ha ⊢ <;> omega

theorem windowRead_buf {i : Nat} {width : Width} {s : State} (hb : s.csr.status.busy = false)
    (hi : i < s.params.bufBytes) (ha : i % widthBytes width = 0) :
    windowRead (0x10000 + i) width s = .readOk (wordOfLanes (bufBytesAt s i (widthBytes width))) := by
  simp [windowRead, regionOf_buf hi, accessOk, bufOffset_aligned ha, hb]

theorem windowWrite_buf {i : Nat} {width : Width} {s : State} (hb : s.csr.status.busy = false)
    (hi : i < s.params.bufBytes) (ha : i % widthBytes width = 0) (data : Word) :
    windowWrite (0x10000 + i) width data s =
      ({ s with buf := memWrite s.buf i (lanesOfWord data (widthBytes width)) }, .writeOk) := by
  simp [windowWrite, regionOf_buf hi, accessOk, bufOffset_aligned ha, hb]

theorem windowRead_buf_w8 {i : Nat} {s : State} (hb : s.csr.status.busy = false) (hi : i < s.params.bufBytes) :
    windowRead (0x10000 + i) .w8 s = .readOk (0#24 ++ bufByte s i) := by
  rw [windowRead_buf (width := .w8) hb hi (Nat.mod_one i), ← wordOfLanes_one]
  rfl

theorem windowRead_buf_w16 {i : Nat} {s : State} (hb : s.csr.status.busy = false) (hi : i < s.params.bufBytes)
    (ha : i % 2 = 0) : windowRead (0x10000 + i) .w16 s = .readOk (0#16 ++ bufByte s (i + 1) ++ bufByte s i) := by
  rw [windowRead_buf (width := .w16) hb hi ha, ← wordOfLanes_two]
  rfl

theorem windowRead_buf_w32 {i : Nat} {s : State} (hb : s.csr.status.busy = false) (hi : i < s.params.bufBytes)
    (ha : i % 4 = 0) :
    windowRead (0x10000 + i) .w32 s =
      .readOk (bufByte s (i + 3) ++ bufByte s (i + 2) ++ bufByte s (i + 1) ++ bufByte s i) := by
  rw [windowRead_buf (width := .w32) hb hi ha, ← wordOfLanes_four]
  rfl

/-- A byte of BUF that lanes were written to is its lane (20 R62, R65). -/
theorem readByte?_memWrite_lanes {n k : Nat} (m : Memory) (i : Nat) (w : Word) (h : k < n) :
    readByte? (memWrite m i (lanesOfWord w n)) (i + k) = some (w.extractLsb' (8 * k) 8) := by
  rw [readByte?_memWrite, if_pos ⟨by omega, by rw [length_lanesOfWord]; omega⟩, Nat.add_sub_cancel_left,
    getElem?_lanesOfWord w h]

theorem readByte?_windowWrite_buf {i k : Nat} {width : Width} {s : State} (hb : s.csr.status.busy = false)
    (hi : i < s.params.bufBytes) (ha : i % widthBytes width = 0) (data : Word) (hk : k < widthBytes width) :
    readByte? (windowWrite (0x10000 + i) width data s).1.buf (i + k) = some (data.extractLsb' (8 * k) 8) := by
  rw [windowWrite_buf hb hi ha]
  exact readByte?_memWrite_lanes s.buf i data hk

/-- What the Host sees of a byte depends on that byte of BUF and the number of resets alone (93 U5). -/
theorem bufByte_congr {s t : State} {i : Nat} (hr : t.resets = s.resets) (h : readByte? t.buf i = readByte? s.buf i) :
    bufByte t i = bufByte s i := by
  rw [bufByte, bufByte, h, hr]

theorem bufByte_of_written {s : State} {i : Nat} {b : Byte} (h : readByte? s.buf i = some b) : bufByte s i = b := by
  rw [bufByte, h, Option.getD_some]

theorem bufByte_of_unwritten {s : State} {i : Nat} (h : readByte? s.buf i = none) :
    bufByte s i = Config.unwrittenByte s.resets i := by
  rw [bufByte, h, Option.getD_none]

/-! ### Bus errors -/

/-- The widths and alignments that 20 R63 does not allow; in the CSR region every narrow access (log entry 8). -/
theorem accessOk_eq_false_iff (N off : Nat) (width : Width) :
    accessOk (regionOf N off) width off = false ↔
      (off < 0x100 ∧ ¬ (width = .w32 ∧ off % 4 = 0)) ∨ (0x100 ≤ off ∧ off % widthBytes width ≠ 0) := by
  unfold regionOf
  split_ifs with h1 h2 h3
  · simp [accessOk, h1, Nat.not_le.mpr h1]
  all_goals simp [accessOk, h1, Nat.le_of_not_lt h1]

theorem windowRead_eq_readError_iff (off : Nat) (width : Width) (s : State) :
    windowRead off width s = .readError 0#32 ↔ accessOk (regionOf s.params.bufBytes off) width off = false := by
  refine ⟨fun h => ?_, fun h => (window_error h 0#32).1⟩
  by_contra hok
  obtain ⟨⟨d, hd⟩, -⟩ := window_ok (Bool.not_eq_false _ ▸ hok) 0#32
  simp [hd] at h

theorem windowWrite_eq_writeError_iff (off : Nat) (width : Width) (data : Word) (s : State) :
    (windowWrite off width data s).2 = .writeError ↔
      accessOk (regionOf s.params.bufBytes off) width off = false := by
  refine ⟨fun h => ?_, fun h => by rw [(window_error h data).2]⟩
  by_contra hok
  obtain ⟨-, hw⟩ := window_ok (Bool.not_eq_false _ ▸ hok) data
  simp [hw] at h

/-- The gap below BUF and the rest of the window above it (20 R60). -/
theorem regionOf_reserved {N off : Nat} (h : (0x100 ≤ off ∧ off < 0x10000) ∨ 0x10000 + N ≤ off) :
    regionOf N off = .reserved := by
  unfold regionOf
  obtain ⟨h1, h2⟩ | h := h
  · rw [if_neg (by omega), if_pos h2]
  · rw [if_neg (by omega), if_neg (by omega), if_neg (by omega)]

/-- An aligned access to a reserved region (20 R60, R63). -/
theorem window_reserved {off : Nat} {width : Width} {s : State}
    (h : (0x100 ≤ off ∧ off < 0x10000) ∨ 0x10000 + s.params.bufBytes ≤ off) (ha : off % widthBytes width = 0)
    (data : Word) :
    windowRead off width s = .readOk 0#32 ∧ windowWrite off width data s = (s, .writeOk) := by
  simp [windowRead, windowWrite, regionOf_reserved h, accessOk, ha]

end Sys2Proof.Machine
end

section
/-! PROOFS. The Host's window and BUF, and what a step takes and answers (20 R60 to R65, R70, R71; 60 R209; 93 U5, U6,
U9). -/

namespace Sys2Proof.Machine

/-! ### Accesses as steps -/

theorem hostAccess_tooWide {a : Access} (h : a.width = .wider) (s : State) :
    hostAccess a s = .fault .accessTooWide := by
  simp [hostAccess, Access.fitsBus, h]

theorem hostAccess_notRouted {a : Access} {s : State} (hw : a.width ≠ .wider) (h : a.routed s.params = false) :
    hostAccess a s = .fault .notRouted := by
  simp [hostAccess, Access.fitsBus, hw, h]

theorem routed_iff {p : Params} {a : Access} :
    a.routed p = true ↔ p.blockBase ≤ a.addr ∧ a.addr < p.blockBase + 0x20000 := by
  simp [Access.routed]

/-- Settles O5: the two faults in the order of log entry 10, and the access behind them. -/
theorem hostAccessIsOneStep : Obligations.HostAccessIsOneStep := by
  intro s a rest hi
  have hpop : { s with inputs := rest } = s.popInput := by rw [State.popInput, hi, List.tail_cons]
  rw [step_host hi, hpop]
  refine ⟨fun hw => hostAccess_tooWide hw _, fun hw hout => hostAccess_notRouted hw ?_, fun hw h1 h2 => ?_⟩
  · rw [Bool.eq_false_iff, Ne, routed_iff, popInput_params]
    omega
  · have hnext : hostAccess a s.popInput = .next (accessWindow a s.popInput) :=
      hostAccess_eq_next.mpr ⟨decide_eq_true hw, routed_iff.mpr ⟨h1, h2⟩, rfl⟩
    rw [hnext]
    cases a with
    | read addr width => simp [accessWindow, respond, windowOffset, ← hpop]
    | write addr width data => rfl

/-- Where the Core moves next, the Host does not (log entry 1). -/
theorem CoreNext.head?_ne_host {s : State} (h : CoreNext s) : ¬ ∃ a, s.inputs.head? = some (.host a) := by
  rintro ⟨a, ha⟩
  obtain h | h := h <;> simp [h] at ha

/-- A Host access changes neither the parameters nor the model's own lists, its response aside (00 R7). -/
theorem HostEffect.lists {a : Access} {s u : State} (he : HostEffect a s u) :
    u.params = s.params ∧ u.inputs = s.inputs ∧ u.responses = s.responses := by
  cases he <;> exact ⟨rfl, rfl, rfl⟩

/-- Settles O21, by the effects of a step. -/
theorem stepConsumesOneInput : Obligations.StepConsumesOneInput := by
  intro s t h
  cases stepEffect_of_next h with
  | wait core | success _ core | failure _ _ core =>
    exact ⟨rfl, rfl, fun ha => absurd ha core.head?_ne_host, fun _ => rfl⟩
  | reset next => exact ⟨rfl, rfl, fun ⟨a, ha⟩ => by simp [next] at ha, fun _ => rfl⟩
  | host a rest r u next effect =>
    obtain ⟨hparams, hinputs, hresponses⟩ := effect.lists
    exact ⟨hparams, hinputs, fun _ => ⟨r, congrArg (r :: ·) hresponses⟩, fun hn => absurd ⟨a, by simp [next]⟩ hn⟩

/-! ### The window -/

/-- Settles O12: both responses are errors exactly where the access is not allowed, and 20 R63 says where that is. -/
theorem busErrorsAreTheBadWidthsAndAlignments : Obligations.BusErrorsAreTheBadWidthsAndAlignments := by
  intro s off width data _ _
  rw [← accessOk_eq_false_iff s.params.bufBytes]
  refine ⟨windowRead_eq_readError_iff off width s, fun h => ?_, windowWrite_eq_writeError_iff off width data s,
    fun h => ?_, fun h => ?_, fun hg ha => window_reserved hg ha data⟩
  · rw [Ne, windowRead_eq_readError_iff, Bool.not_eq_false] at h
    exact (window_ok h data).1
  · rw [windowWrite_eq_writeError_iff] at h
    rw [(window_error h data).2]
  · rw [Ne, windowWrite_eq_writeError_iff, Bool.not_eq_false] at h
    exact (window_ok h data).2

/-- Settles O14: the write stores its lanes, and what is read back is the first of them. -/
theorem hostBufferWriteStoresItsWidthOnly : Obligations.HostBufferWriteStoresItsWidthOnly := by
  intro s i width data hb _ hi ha
  refine ⟨_, windowWrite_buf hb hi ha data, fun k hk => readByte?_memWrite_lanes s.buf i data hk, ?outside, rfl, rfl,
    rfl, rfl, rfl, rfl, ?readBack⟩
  case outside =>
    intro a hout
    exact readByte?_memWrite_outside (by rwa [length_lanesOfWord])
  case readBack =>
    rintro rfl
    rw [windowRead_buf_w8 (s := { s with buf := memWrite s.buf i _ }) hb hi,
      bufByte_of_written (readByte?_memWrite_lanes s.buf i data (k := 0) (by decide))]

/-- Settles O15: the byte is the free value, and a write elsewhere changes neither the byte nor the count of resets. -/
theorem unwrittenBytesReadOneUnknownValue : Obligations.UnwrittenBytesReadOneUnknownValue := by
  intro s i hb hi hnone
  refine ⟨by rw [windowRead_buf_w8 hb hi, bufByte_of_unwritten hnone], fun j width data _ hj ha hout => ?_⟩
  rw [windowWrite_buf hb hj ha, windowRead_buf_w8 (s := { s with buf := memWrite s.buf j _ }) hb hi,
    windowRead_buf_w8 hb hi]
  congr 2
  exact bufByte_congr rfl (readByte?_memWrite_outside (by rwa [length_lanesOfWord]))

/-- Settles O13: reads by the bytes they carry, writes by the lanes they store. -/
theorem hostAccessesAreLittleEndian : Obligations.HostAccessesAreLittleEndian := by
  intro s a hb
  refine ⟨fun ha hfit => ?word, fun ha hfit => ?half, fun r => windowRead_reg r s⟩
  case word =>
    have hlt : a < s.params.bufBytes := by omega
    refine ⟨windowRead_buf_w32 hb hlt ha,
      fun d k hk => readByte?_windowWrite_buf (width := .w32) hb hlt ha d hk, fun v => ?_⟩
    rw [Nat.add_assoc, windowWrite_buf hb (by omega) (Nat.mod_one _)]
    refine ⟨_, windowRead_buf_w32 (s := { s with buf := memWrite s.buf (a + 1) _ }) hb hlt ha, ?_⟩
    rw [extractLsb'_second_byte,
      bufByte_of_written (i := a + 1) (readByte?_memWrite_lanes s.buf (a + 1) _ (k := 0) (by decide)),
      BitVec.extractLsb'_setWidth_of_le (by omega), Nat.mul_zero, BitVec.extractLsb'_eq_self]
  case half =>
    have hlt : a < s.params.bufBytes := by omega
    exact ⟨windowRead_buf_w16 hb hlt ha, fun d k hk => readByte?_windowWrite_buf (width := .w16) hb hlt ha d hk⟩

/-! ### Model faults of commands -/

/-- A command stops with a model fault exactly where its command function has no result (20 R70). -/
theorem exec_eq_fault_iff {i : Instr} {s : State} {f : Fault} :
    exec i s = .fault f ↔
      f = .unwrittenBufByte ∧ commandOutcome i s.snap s.params.bufBytes s.buf = .noResult .unwrittenBufByte := by
  rw [exec_eq_complete, complete_eq_fault]
  constructor
  · intro h
    obtain rfl := commandOutcome_noResult h
    exact ⟨rfl, h⟩
  · rintro ⟨rfl, h⟩
    exact h

/-- A check that fails is an error, so a command without a result has passed each of its checks (60 R193). -/
theorem ite_err_eq_noResult {c : Prop} [Decidable c] {code : ErrCode} {param : ErrParam} {o : CmdOutcome} {f : Fault} :
    (if c then .err code param else o) = .noResult f ↔ ¬ c ∧ o = .noResult f := by
  split <;> simp [*]

/-- B32DEC stops exactly behind its checks of NULL_IN and of the source window, where the read fails (40 R125). -/
theorem b32decCommand_eq_noResult {n : Bool} {S : Snapshot} {N : Nat} {m : Memory} :
    b32decCommand n S N m = .noResult .unwrittenBufByte ↔
      n = false ∧ InBuf N (u32 S.srcAddr) (u32 S.srcLen) ∧ memRead m (u32 S.srcAddr) (u32 S.srcLen) = none := by
  simp only [b32decCommand, ite_err_eq_noResult, not_not, Bool.not_eq_true]
  cases memRead m (u32 S.srcAddr) (u32 S.srcLen) with
  | none => simp only
  | some text =>
    dsimp only
    cases textValues S.aliasEn (trim text) <;> simp only [ite_err_eq_noResult, reduceCtorEq, and_false]

/-- B32ENC stops exactly behind all its checks, where the read of the sub-range fails (40 R130, log entry 6). -/
theorem b32encCommand_eq_noResult {n p : Bool} {S : Snapshot} {N : Nat} {m : Memory} :
    b32encCommand n p S N m = .noResult .unwrittenBufByte ↔
      n = false ∧ 0 ≤ s32 S.offset ∧ 0 ≤ s32 S.length ∧ s32 S.offset + s32 S.length ≤ (u32 S.srcLen : Int) ∧
        s32 S.length < 2 ^ 28 ∧ InBuf N (u32 S.srcAddr) (u32 S.srcLen) ∧
        InBuf N (u32 S.dstAddr)
          (encodedLength (s32 S.length).toNat + padCount p (encodedLength (s32 S.length).toNat)) ∧
        memRead m (u32 S.srcAddr + (s32 S.offset).toNat) (s32 S.length).toNat = none := by
  simp only [b32encCommand, ite_err_eq_noResult, not_not, Bool.not_eq_true, not_lt, gt_iff_lt, ge_iff_le, not_le]
  cases memRead m (u32 S.srcAddr + (s32 S.offset).toNat) (s32 S.length).toNat <;> simp only [reduceCtorEq]

/-- HOTPGEN stops exactly behind all its checks, where the read of the key fails (41 R160). -/
theorem hotpgenCommand_eq_noResult {n : Bool} {S : Snapshot} {N : Nat} {m : Memory} :
    hotpgenCommand n S N m = .noResult .unwrittenBufByte ↔
      n = false ∧ 0 ≤ s64 S.counter ∧ u32 S.srcLen ≠ 0 ∧ ¬ (s32 S.digits < 1 ∨ s32 S.digits > 10) ∧
        InBuf N (u32 S.srcAddr) (u32 S.srcLen) ∧ InBuf N (u32 S.dstAddr) (s32 S.digits).toNat ∧
        memRead m (u32 S.srcAddr) (u32 S.srcLen) = none := by
  simp only [hotpgenCommand, ite_err_eq_noResult, not_not, Bool.not_eq_true, not_lt]
  cases memRead m (u32 S.srcAddr) (u32 S.srcLen) <;> simp only [reduceCtorEq]

theorem totpcntCommand_ne_noResult {S : Snapshot} {f : Fault} : totpcntCommand S ≠ .noResult f := by
  simp [totpcntCommand, ite_err_eq_noResult]

/-- Only the three commands that read BUF can be without a result. -/
theorem commandOutcome_ne_noResult {i : Instr} (h : ∀ n p, i ≠ .b32dec n p ∧ i ≠ .b32enc n p ∧ i ≠ .hotpgen n p)
    {S : Snapshot} {N : Nat} {m : Memory} {f : Fault} : commandOutcome i S N m ≠ .noResult f := by
  cases i with
  | b32dec n p => exact absurd rfl (h n p).1
  | b32enc n p => exact absurd rfl (h n p).2.1
  | hotpgen n p => exact absurd rfl (h n p).2.2
  | totpcnt => exact totpcntCommand_ne_noResult
  | _ => exact CmdOutcome.noConfusion

/-- Settles O34, by the command functions: where each has no result, and that TOTPCNT and the others always have one. -/
theorem commandsStopOnlyOnUnwrittenInput : Obligations.CommandsStopOnlyOnUnwrittenInput := by
  intro s n pad f
  refine ⟨?dec, ?enc, ?hotp, fun i hi hf => ?others, fun i r => ?refused⟩
  case dec => rw [exec_eq_fault_iff, commandOutcome, b32decCommand_eq_noResult, memRead_eq_none]
  case enc =>
    rw [exec_eq_fault_iff, commandOutcome, b32encCommand_eq_noResult, memRead_eq_none]
    rfl
  case hotp =>
    rw [exec_eq_fault_iff, commandOutcome, hotpgenCommand_eq_noResult, memRead_eq_none, not_or, not_lt, not_lt,
      and_assoc]
  case others => exact commandOutcome_ne_noResult hi (exec_eq_fault_iff.mp hf).2
  case refused =>
    rw [exec_eq_complete]
    exact complete_ne_refused

end Sys2Proof.Machine
end

section
/-! SUPPORT. Command words and commands: the opcode map reaches every command, and the fields of a word are its command
(30 R90, R91, R94). -/

namespace Sys2Proof

/-- Every command is a row of the opcode map with its two flags, so what holds of the map's rows holds of every command
(30 R91). -/
theorem forall_of_commandOf {P : Instr → Prop} (h : ∀ op n p, P (commandOf op n p)) : ∀ i, P i
  | .illegal0 n p => h 0x0#4 n p
  | .b32dec n p   => h 0x1#4 n p
  | .b32enc n p   => h 0x2#4 n p
  | .hotpgen n p  => h 0x3#4 n p
  | .totpcnt n p  => h 0x4#4 n p
  | .illegal5 n p => h 0x5#4 n p
  | .illegal6 n p => h 0x6#4 n p
  | .illegal7 n p => h 0x7#4 n p
  | .illegal8 n p => h 0x8#4 n p
  | .illegal9 n p => h 0x9#4 n p
  | .illegalA n p => h 0xA#4 n p
  | .illegalB n p => h 0xB#4 n p
  | .illegalC n p => h 0xC#4 n p
  | .illegalD n p => h 0xD#4 n p
  | .illegalE n p => h 0xE#4 n p
  | .illegalF n p => h 0xF#4 n p

/-- The command word is built from the opcode and the flags (30 R90, R91). -/
theorem encode_commandOf :
    ∀ (op : BitVec 4) (n p : Bool), encode (commandOf op n p) = op.setWidth 32 ||| flagBits n p := by decide

/-- NULL_IN is bit 9, PAD is bit 8 (30 R90). -/
theorem getLsbD_flagBits (n p : Bool) (i : Nat) :
    (flagBits n p).getLsbD i = ((n && decide (i = 9)) || (p && decide (i = 8))) := by
  have hnull : 0x200#32 = BitVec.twoPow 32 9 := rfl
  have hpad : 0x100#32 = BitVec.twoPow 32 8 := rfl
  cases n <;> cases p <;> simp [flagBits, hnull, hpad, BitVec.getLsbD_twoPow, eq_comm]

/-- The mask keeps OPCODE, PAD and NULL_IN (30 R90). -/
theorem getLsbD_cmdMask (i : Nat) : cmdMask.getLsbD i = (decide (i < 4) || decide (i = 8) || decide (i = 9)) := by
  by_cases hi : i < 32
  · revert i; decide
  · rw [BitVec.getLsbD_of_ge _ _ (by omega)]
    simp
    omega

/-- The three fields of a word, put back at their places, are the word without its reserved bits (30 R90, R94). -/
theorem fields_eq_and_cmdMask (w : Word) :
    (opcodeOf w).setWidth 32 ||| flagBits (nullInOf w) (padOf w) = w &&& cmdMask := by
  refine BitVec.eq_of_getLsbD_eq fun i hi => ?_
  rw [BitVec.getLsbD_and, getLsbD_cmdMask, BitVec.getLsbD_or, getLsbD_flagBits, opcodeOf, nullInOf, padOf]
  by_cases h8 : i = 8
  · subst h8; simp
  · by_cases h9 : i = 9
    · subst h9; simp
    · simp [h8, h9, hi, Bool.and_comm]

/-- A word built from an opcode and flags decodes to their row of the opcode map (30 R91). -/
theorem decodeWord_fields (op : BitVec 4) (n p : Bool) :
    decodeWord (op.setWidth 32 ||| flagBits n p) = commandOf op n p := by
  have hop : opcodeOf (op.setWidth 32 ||| flagBits n p) = op := by
    refine BitVec.eq_of_getLsbD_eq fun i hi => ?_
    rw [opcodeOf, BitVec.getLsbD_extractLsb', BitVec.getLsbD_or, getLsbD_flagBits]
    simp [hi, show i < 32 by omega, show i ≠ 8 by omega, show i ≠ 9 by omega]
  have hnull : nullInOf (op.setWidth 32 ||| flagBits n p) = n := by
    rw [nullInOf, BitVec.getLsbD_or, getLsbD_flagBits]
    simp
  have hpad : padOf (op.setWidth 32 ||| flagBits n p) = p := by
    rw [padOf, BitVec.getLsbD_or, getLsbD_flagBits]
    simp
  rw [decodeWord, hop, hnull, hpad]

@[simp] theorem decodeWord_encode (i : Instr) : decodeWord (encode i) = i :=
  forall_of_commandOf (P := fun i => decodeWord (encode i) = i)
    (fun op n p => by rw [encode_commandOf, decodeWord_fields]) i

theorem encode_decodeWord (w : Word) : encode (decodeWord w) = w &&& cmdMask := by
  rw [decodeWord, encode_commandOf, fields_eq_and_cmdMask]

@[simp] theorem decodeWord_and_cmdMask (w : Word) : decodeWord (w &&& cmdMask) = decodeWord w := by
  rw [← encode_decodeWord, decodeWord_encode]

/-- Two words are one command exactly where they agree outside the reserved bits (30 R94). -/
theorem decodeWord_eq_iff {w w' : Word} : decodeWord w = decodeWord w' ↔ w &&& cmdMask = w' &&& cmdMask := by
  constructor <;> intro h
  · simpa only [encode_decodeWord] using congrArg encode h
  · simpa only [decodeWord_and_cmdMask] using congrArg decodeWord h

/-- The decoder takes one command word off and leaves what follows it (30 R95). -/
@[simp] theorem decode_bytesOfWord_append (w : Word) (rest : List Byte) :
    decode (bytesOfWord w ++ rest) = .ok (decodeWord w, rest) := by
  rw [bytesOfWord, List.cons_append, List.cons_append, List.cons_append, List.cons_append, List.nil_append, decode,
    Machine.wordOfBytes_extract]

/-- Fewer than 32 bits are no command word (30 R95). -/
theorem decode_short : ∀ {bs : List Byte}, bs.length < 4 → decode bs = .error .truncated
  | [], _ | [_], _ | [_, _], _ | [_, _, _], _ => rfl
  | _ :: _ :: _ :: _ :: _, h => absurd h (by simp)

end Sys2Proof
end

section
/-! SUPPORT. Big-endian byte lists and decimal texts read back as numbers (00 R11; 30 R100). -/

namespace Sys2Proof.Machine

/-- Reading on from an accumulator appends the bytes' digits in base 256 (00 R11). -/
theorem foldl_beBytes (n v acc : Nat) :
    (beBytes n v).foldl (fun acc b => acc * 256 + b.toNat) acc = acc * 256 ^ n + v % 256 ^ n := by
  induction n generalizing acc with
  | zero => simp [beBytes, Nat.mod_one]
  | succ n ih =>
    have hsplit : v % 256 ^ (n + 1) = v % 256 ^ n + 256 ^ n * (v / 256 ^ n % 256) := Nat.mod_pow_succ
    rw [beBytes, List.foldl_cons, ih, hsplit, BitVec.toNat_ofNat]
    ring

/-- `BEval` reads the low n bytes of the number back (00 R11). -/
@[simp] theorem beVal_beBytes (n v : Nat) : beVal (beBytes n v) = v % 256 ^ n := by
  rw [beVal, foldl_beBytes, Nat.zero_mul, Nat.zero_add]

/-- One more digit: the quotient's text, then the last digit (30 R100). -/
theorem decimalText_succ (t d : Nat) :
    decimalText t (d + 1) = decimalText (t / 10) d ++ [BitVec.ofNat 8 (0x30 + t % 10)] := by
  have hdigit : ∀ i ∈ List.range d, BitVec.ofNat 8 (0x30 + t / 10 ^ (d + 1 - 1 - i) % 10) =
      BitVec.ofNat 8 (0x30 + t / 10 / 10 ^ (d - 1 - i) % 10) := by
    intro i hi
    have hi : i < d := List.mem_range.mp hi
    rw [Nat.div_div_eq_div_mul, ← Nat.pow_succ', show d + 1 - 1 - i = (d - 1 - i).succ by omega]
  rw [decimalText, List.range_succ, List.map_append, List.map_congr_left hdigit, List.map_singleton, Nat.add_sub_cancel,
    Nat.sub_self, Nat.pow_zero, Nat.div_one, decimalText]

/-- The code of a decimal digit (30 R100). -/
theorem toNat_digitCode (n : Nat) : (BitVec.ofNat 8 (0x30 + n % 10)).toNat = 0x30 + n % 10 := by
  rw [BitVec.toNat_ofNat]
  omega

/-- The decimal value of a token's text is the token (30 R100). -/
theorem foldl_decimalText {t d : Nat} (h : t < 10 ^ d) :
    (decimalText t d).foldl (fun acc b => acc * 10 + (b.toNat - 0x30)) 0 = t := by
  induction d generalizing t with
  | zero => simp [decimalText]; omega
  | succ d ih =>
    have hquot : t / 10 < 10 ^ d := Nat.div_lt_of_lt_mul (by rwa [← Nat.pow_succ'])
    rw [decimalText_succ, List.foldl_append, ih hquot, List.foldl_cons, List.foldl_nil, toNat_digitCode]
    omega

end Sys2Proof.Machine
end

section
/-! SUPPORT. The Base32 alphabet: what each branch of Alpha, ALPHABET and Upper gives (30 R97, R98; 40 R122). -/

namespace Sys2Proof.Machine

theorem alpha_letter {c : Byte} (h : 0x41 ≤ c.toNat ∧ c.toNat ≤ 0x5A) (aliasEn : Bool) :
    alpha c aliasEn = some (BitVec.ofNat 5 (c.toNat - 0x41)) := if_pos h

theorem alpha_digit {c : Byte} (h : 0x32 ≤ c.toNat ∧ c.toNat ≤ 0x37) (aliasEn : Bool) :
    alpha c aliasEn = some (BitVec.ofNat 5 (c.toNat - 0x18)) := by
  rw [alpha, if_neg (by omega), if_pos h]

theorem alpha_zero (aliasEn : Bool) : alpha 0x30#8 aliasEn = if aliasEn then some 14#5 else none := by
  simp [alpha]

theorem alpha_one (aliasEn : Bool) : alpha 0x31#8 aliasEn = if aliasEn then some 8#5 else none := by
  simp [alpha]

theorem alpha_eight (aliasEn : Bool) : alpha 0x38#8 aliasEn = if aliasEn then some 1#5 else none := by
  simp [alpha]

/-- The codes below '0', '9', between '9' and 'A', and above 'Z' have no value, aliases on or off (30 R98). -/
theorem alpha_eq_none {c : Byte}
    (h : c.toNat < 0x30 ∨ c.toNat = 0x39 ∨ (0x3A ≤ c.toNat ∧ c.toNat ≤ 0x40) ∨ 0x5A < c.toNat) (aliasEn : Bool) :
    alpha c aliasEn = none := by
  have hne (k : Byte) (hk : k.toNat = 0x30 ∨ k.toNat = 0x31 ∨ k.toNat = 0x38) : ¬ (c = k ∧ aliasEn = true) := by
    rintro ⟨rfl, -⟩
    omega
  rw [alpha, if_neg (by omega), if_neg (by omega), if_neg (hne _ (by decide)), if_neg (hne _ (by decide)),
    if_neg (hne _ (by decide))]

theorem toNat_alphabet (v : BitVec 5) :
    (alphabet v).toNat = if v.toNat ≤ 25 then 0x41 + v.toNat else 0x18 + v.toNat := by
  have hv := v.isLt
  unfold alphabet
  split <;> rw [BitVec.toNat_ofNat] <;> omega

/-- The characters of the alphabet are the codes of 'A' to 'Z' and of '2' to '7' (30 R97). -/
theorem alphabet_range (v : BitVec 5) :
    (0x41 ≤ (alphabet v).toNat ∧ (alphabet v).toNat ≤ 0x5A) ∨
      (0x32 ≤ (alphabet v).toNat ∧ (alphabet v).toNat ≤ 0x37) := by
  have hv := v.isLt
  rw [toNat_alphabet]
  split <;> omega

theorem upper_of_not_lower {c : Byte} (h : ¬ (0x61 ≤ c.toNat ∧ c.toNat ≤ 0x7A)) : upper c = c := if_neg h

theorem toNat_upper_of_lower {c : Byte} (h : 0x61 ≤ c.toNat ∧ c.toNat ≤ 0x7A) : (upper c).toNat = c.toNat - 0x20 := by
  rw [upper, if_pos h, BitVec.toNat_sub_of_le (by rw [BitVec.le_def]; exact h.1.trans' (by decide))]
  rfl

@[simp] theorem upper_alphabet (v : BitVec 5) : upper (alphabet v) = alphabet v :=
  upper_of_not_lower (by have := alphabet_range v; omega)

/-- The decode alphabet reads the encode alphabet back, aliases on or off (30 R97, R98). -/
@[simp] theorem alpha_alphabet (v : BitVec 5) (aliasEn : Bool) : alpha (alphabet v) aliasEn = some v := by
  have hv := v.isLt
  have hcode := toNat_alphabet v
  split at hcode
  · rw [alpha_letter (by omega), hcode, Nat.add_sub_cancel_left, BitVec.ofNat_toNat, BitVec.setWidth_eq]
  · rw [alpha_digit (by omega), hcode, Nat.add_sub_cancel_left, BitVec.ofNat_toNat, BitVec.setWidth_eq]

/-- The encode alphabet holds none of '0', '1' and '8' (40 R121). -/
theorem alphabet_ne_zero_one_eight (v : BitVec 5) :
    alphabet v ≠ 0x30#8 ∧ alphabet v ≠ 0x31#8 ∧ alphabet v ≠ 0x38#8 := by
  have hrange := alphabet_range v
  refine ⟨?_, ?_, ?_⟩ <;> intro h <;> rw [h] at hrange <;> exact absurd hrange (by decide)

end Sys2Proof.Machine
end

section
/-! PROOFS. Command words, the texts of numbers, and the Base32 alphabet (30 R90 to R101). -/

namespace Sys2Proof.Machine

/-- Settles O2: decoding and encoding are inverse up to the reserved bits. -/
theorem decodeAndEncodeAgree : Obligations.DecodeAndEncodeAgree := by
  refine ⟨fun i rest => ?readBack, encode_decodeWord, fun w w' => decodeWord_eq_iff, fun _ => decode_short⟩
  case readBack => rw [decode_bytesOfWord_append, decodeWord_encode]

/-- Settles O3: the write is an acceptance, and the Core's turn after it completes with ILLEGAL_CMD. -/
theorem reservedWordsAreAcceptedAndFail : Obligations.ReservedWordsAreAcceptedAndFail := by
  intro s w hb
  refine ⟨(accept_and_cmdMask w s).symm, ?write, windowRead_reg .cmd (accept w s), fun hop => ?completion⟩
  case write => rw [show 0x00C = regOffset .cmd by rfl, windowWrite_reg, csrWrite_cmd_idle hb]
  case completion => exact ⟨_, coreTurn_illegal rfl hop, by rw [completeErr_csr_status]; rfl, rfl, rfl, rfl⟩

/-- Settles O49: the masked counter is below 2^63, so its eight bytes hold all of it and the top bit is 0. -/
theorem counterMessageIsBigEndian : Obligations.CounterMessageIsBigEndian := by
  intro counter
  have hlt : (counter &&& 0x7FFFFFFFFFFFFFFF#64).toNat < 2 ^ 63 := by
    rw [BitVec.toNat_and]
    exact Nat.and_lt_two_pow _ (by decide)
  have hval : beVal (counterMessage counter) = (counter &&& 0x7FFFFFFFFFFFFFFF#64).toNat := by
    rw [counterMessage, beVal_beBytes, Nat.mod_eq_of_lt (by omega)]
  refine ⟨length_beBytes .., hval, ?topBit, fun hpos => ?nonneg⟩
  case topBit =>
    rintro _ ⟨⟩
    have htop : (counter &&& 0x7FFFFFFFFFFFFFFF#64).toNat / 256 ^ 7 < 2 ^ 7 := Nat.div_lt_of_lt_mul hlt
    rw [BitVec.getLsbD_ofNat, Nat.testBit_lt_two_pow htop, Bool.and_false]
  case nonneg =>
    rw [hval, BitVec.toNat_and, show (0x7FFFFFFFFFFFFFFF#64).toNat = 2 ^ 63 - 1 by rfl, Nat.and_two_pow_sub_one_eq_mod,
      Nat.mod_eq_of_lt]
    have := BitVec.toInt_pos_iff.mp hpos
    omega

/-- Settles O51: the digits by the definition of the text, its value by induction on the number of digits. -/
theorem tokenTextIsItsDecimalValue : Obligations.TokenTextIsItsDecimalValue := by
  intro t d ht
  refine ⟨length_decimalText t d, fun i hi => ?digit, fun b hb => ?code, foldl_decimalText ht⟩
  case digit => simp [decimalText, hi]
  case code =>
    obtain ⟨i, -, rfl⟩ := List.mem_map.mp hb
    rw [toNat_digitCode]
    omega

/-- Settles O1: each word is evaluated. -/
theorem knownWordsDecode : Obligations.KnownWordsDecode := by
  unfold Obligations.KnownWordsDecode
  decide

/-- Settles O41, by the branches of Alpha. -/
theorem alphaIsTheDecodeAlphabet : Obligations.AlphaIsTheDecodeAlphabet := by
  intro c aliasEn
  refine ⟨fun h => ?letter, fun h => ?digit, ?zero, ?one, ?eight, fun h => alpha_eq_none h aliasEn⟩
  case letter =>
    rw [alpha_letter h, Option.map_some, BitVec.toNat_ofNat, Nat.mod_eq_of_lt (by omega)]
  case digit =>
    rw [alpha_digit h, Option.map_some, BitVec.toNat_ofNat, Nat.mod_eq_of_lt (by omega)]
  case zero =>
    rintro rfl
    rw [alpha_zero]
    cases aliasEn <;> rfl
  case one =>
    rintro rfl
    rw [alpha_one]
    cases aliasEn <;> rfl
  case eight =>
    rintro rfl
    rw [alpha_eight]
    cases aliasEn <;> rfl

/-- Settles O42: the codes of the alphabet, their values, and the two branches of Upper. -/
theorem alphabetIsReadBack : Obligations.AlphabetIsReadBack := by
  refine ⟨fun v => ⟨fun h => ?letter, fun h => ?digit⟩, fun v aliasEn => ?readBack, alphabet_ne_zero_one_eight,
    fun c => ⟨toNat_upper_of_lower, upper_of_not_lower⟩⟩
  case letter => rw [toNat_alphabet, if_pos h]
  case digit =>
    rw [toNat_alphabet, if_neg (by omega)]
    omega
  case readBack => rw [upper_alphabet, alpha_alphabet]

end Sys2Proof.Machine
end

section
/-! SUPPORT. Trim and the values of a text (40 R122, R123, R126): what is stripped, what stays, and which maps of the
characters neither of them sees. -/

namespace Sys2Proof.Machine

/-! ### Stripping at the end -/

/-- Stripping at the end is Mathlib's `rdropWhile`. -/
theorem stripEnd_eq_rdropWhile (p : Byte → Bool) (t : List Byte) : stripEnd p t = t.rdropWhile p := rfl

theorem stripEnd_append_of_all {p : Byte → Bool} {t b : List Byte} (hb : ∀ c ∈ b, p c = true) :
    stripEnd p (t ++ b) = stripEnd p t := by
  rw [stripEnd, List.reverse_append, List.dropWhile_append_of_pos (by simpa using hb), stripEnd]

theorem stripEnd_eq_self {p : Byte → Bool} {t : List Byte} (h : ∀ c, t.getLast? = some c → p c = false) :
    stripEnd p t = t := by
  rw [stripEnd_eq_rdropWhile, List.rdropWhile_eq_self_iff]
  intro hne
  simp [h _ (List.getLast?_eq_some_getLast hne)]

theorem getLast?_stripEnd {p : Byte → Bool} {t : List Byte} {c : Byte} (h : (stripEnd p t).getLast? = some c) :
    p c = false := by
  have hnot := List.head?_dropWhile_not p t.reverse
  rw [stripEnd, List.getLast?_reverse] at h
  rwa [h] at hnot

/-- What is stripped at the end stood there, and all of it meets the condition. -/
theorem exists_stripEnd_append (p : Byte → Bool) (t : List Byte) :
    ∃ b, t = stripEnd p t ++ b ∧ ∀ c ∈ b, p c = true :=
  ⟨t.rtakeWhile p, List.rdropWhile_append_rtakeWhile.symm, fun _ => List.mem_rtakeWhile_imp⟩

theorem stripEnd_map {p : Byte → Bool} {f : Byte → Byte} (h : ∀ c, p (f c) = p c) (t : List Byte) :
    stripEnd p (t.map f) = (stripEnd p t).map f := by
  rw [stripEnd, ← List.map_reverse, List.dropWhile_map, ← List.map_reverse, stripEnd, show p ∘ f = p from funext h]

/-! ### Trim -/

theorem isWS_iff (c : Byte) :
    isWS c = true ↔ c ∈ ([0x09#8, 0x0A#8, 0x0B#8, 0x0C#8, 0x0D#8, 0x20#8] : List Byte) := by
  simp [isWS, or_assoc]

/-- No code above the blank is whitespace (00 R7). -/
theorem isWS_eq_false {c : Byte} (h : 0x20 < c.toNat) : isWS c = false := by
  rw [← Bool.not_eq_true, isWS_iff]
  have hmax : ∀ d ∈ ([0x09#8, 0x0A#8, 0x0B#8, 0x0C#8, 0x0D#8, 0x20#8] : List Byte), d.toNat ≤ 0x20 := by decide
  exact fun hc => absurd (hmax c hc) (by omega)

/-- Whitespace around a text whose ends are none is stripped, and nothing else. -/
theorem stripWS_eq {a m b : List Byte} (ha : ∀ c ∈ a, isWS c = true) (hb : ∀ c ∈ b, isWS c = true)
    (hfirst : ∀ c, m.head? = some c → isWS c = false) (hlast : ∀ c, m.getLast? = some c → isWS c = false) :
    stripEnd isWS ((a ++ (m ++ b)).dropWhile isWS) = m := by
  rw [List.dropWhile_append_of_pos ha]
  cases m with
  | nil => rw [List.nil_append, List.dropWhile_eq_nil_iff.mpr hb]; rfl
  | cons c m =>
    rw [List.cons_append, List.dropWhile_cons_of_neg (by simp [hfirst c rfl]), ← List.cons_append,
      stripEnd_append_of_all hb, stripEnd_eq_self hlast]

/-- What stands around it fixes the result of Trim: whitespace, and '=' before the trailing whitespace (40 R123). -/
theorem trim_eq {a m b : List Byte} {k : Nat} (ha : ∀ c ∈ a, isWS c = true) (hb : ∀ c ∈ b, isWS c = true)
    (hfirst : ∀ c, m.head? = some c → isWS c = false)
    (hlast : ∀ c, m.getLast? = some c → c ≠ padChar ∧ (k = 0 → isWS c = false)) :
    trim (a ++ m ++ List.replicate k padChar ++ b) = m := by
  have hpad : isWS padChar = false := rfl
  have hfirst' : ∀ c, (m ++ List.replicate k padChar).head? = some c → isWS c = false := by
    intro c hc
    cases m with
    | nil => exact List.eq_of_mem_replicate (List.mem_of_head? hc) ▸ hpad
    | cons d m => exact hfirst c hc
  have hlast' : ∀ c, (m ++ List.replicate k padChar).getLast? = some c → isWS c = false := by
    intro c hc
    cases k with
    | zero => exact (hlast c (by simpa using hc)).2 rfl
    | succ k =>
      rw [List.replicate_succ', ← List.append_assoc, List.getLast?_concat] at hc
      cases hc
      exact hpad
  rw [trim, List.append_assoc, List.append_assoc, ← List.append_assoc m, stripWS_eq ha hb hfirst' hlast',
    stripEnd_append_of_all (by simp), stripEnd_eq_self fun c hc => by simp [(hlast c hc).1]]

/-- What Trim leaves, and what stood around it (40 R123). -/
theorem exists_trim_parts (t : List Byte) : ∃ (a b : List Byte) (k : Nat),
    t = a ++ trim t ++ List.replicate k padChar ++ b ∧
      (∀ c ∈ a, isWS c = true) ∧ (∀ c ∈ b, isWS c = true) ∧
      (∀ c, (trim t).head? = some c → isWS c = false) ∧
      (∀ c, (trim t).getLast? = some c → c ≠ padChar ∧ (k = 0 → isWS c = false)) := by
  obtain ⟨b, hb, hbWS⟩ := exists_stripEnd_append isWS (t.dropWhile isWS)
  obtain ⟨r, hr, hrPad⟩ := exists_stripEnd_append (fun c => c == padChar) (stripEnd isWS (t.dropWhile isWS))
  change _ = trim t ++ r at hr
  obtain ⟨k, rfl⟩ : ∃ k, r = List.replicate k padChar :=
    ⟨r.length, List.eq_replicate_of_mem fun c hc => by simpa using hrPad c hc⟩
  rw [hr] at hb
  refine ⟨t.takeWhile isWS, b, k, ?parts, fun _ => List.mem_takeWhile_imp, hbWS, fun c hc => ?first,
    fun c hc => ⟨?notPad, fun hk => ?last⟩⟩
  case parts => rw [List.append_assoc, List.append_assoc, ← List.append_assoc (trim t), ← hb,
    List.takeWhile_append_dropWhile]
  case first =>
    have hnot := List.head?_dropWhile_not isWS t
    rw [hb, List.append_assoc, List.head?_append, hc] at hnot
    exact hnot
  case notPad => simpa using getLast?_stripEnd hc
  case last =>
    subst hk
    rw [List.replicate_zero, List.append_nil] at hr
    exact getLast?_stripEnd (hr ▸ hc)

/-- A character that is neither whitespace nor '=' is not stripped. -/
theorem mem_trim {t : List Byte} {c : Byte} (hc : c ∈ t) (hws : isWS c = false) (hpad : c ≠ padChar) : c ∈ trim t := by
  obtain ⟨a, b, k, ht, ha, hb, -⟩ := exists_trim_parts t
  rw [ht, List.mem_append, List.mem_append, List.mem_append] at hc
  obtain ((hc | hc) | hc) | hc := hc
  · simp [ha c hc] at hws
  · exact hc
  · exact absurd (List.eq_of_mem_replicate hc) hpad
  · simp [hb c hc] at hws

/-- A map of the characters that keeps whitespace and '=' apart from the others commutes with Trim. -/
theorem trim_map {f : Byte → Byte} (hws : ∀ c, isWS (f c) = isWS c) (hpad : ∀ c, f c = padChar ↔ c = padChar)
    (t : List Byte) : trim (t.map f) = (trim t).map f := by
  have hpad' : ∀ c, (f c == padChar) = (c == padChar) := fun c => by rw [Bool.eq_iff_iff]; simp [hpad]
  rw [trim, List.dropWhile_map, show isWS ∘ f = isWS from funext hws, stripEnd_map hws, stripEnd_map hpad', trim]

/-! ### The values of a text -/

theorem textValues_cons (aliasEn : Bool) (c : Byte) (t : List Byte) :
    textValues aliasEn (c :: t) = (alpha (upper c) aliasEn).bind fun v => (textValues aliasEn t).map (v :: ·) := by
  rw [textValues]
  cases alpha (upper c) aliasEn <;> cases textValues aliasEn t <;> rfl

/-- A text has values where each of its characters has one (40 R126). -/
theorem textValues_eq_some {aliasEn : Bool} {t : List Byte} {vals : List (BitVec 5)} :
    textValues aliasEn t = some vals ↔ List.Forall₂ (fun c v => alpha (upper c) aliasEn = some v) t vals := by
  induction t generalizing vals with
  | nil => simp [textValues, eq_comm]
  | cons c t ih => simp [textValues_cons, List.forall₂_cons_left_iff, Option.bind_eq_some_iff, ih, @eq_comm _ vals]

/-- One character outside the alphabet leaves the whole text without a value (40 R126). -/
theorem textValues_eq_none {aliasEn : Bool} {t : List Byte} {c : Byte} (hc : c ∈ t)
    (h : alpha (upper c) aliasEn = none) : textValues aliasEn t = none := by
  induction hc with
  | head t => rw [textValues_cons, h, Option.bind_none]
  | tail d _ ih => simp only [textValues_cons, ih, Option.map_none, Option.bind_fun_none]

theorem textValues_map {aliasEn : Bool} {f : Byte → Byte}
    (h : ∀ c, alpha (upper (f c)) aliasEn = alpha (upper c) aliasEn) (t : List Byte) :
    textValues aliasEn (t.map f) = textValues aliasEn t := by
  induction t with
  | nil => rfl
  | cons c t ih => rw [List.map_cons, textValues_cons, textValues_cons, h, ih]

@[simp] theorem textValues_map_alphabet (aliasEn : Bool) (vals : List (BitVec 5)) :
    textValues aliasEn (vals.map alphabet) = some vals := by
  rw [textValues_eq_some, List.forall₂_map_left_iff]
  exact List.forall₂_same.mpr fun v _ => by simp

/-- Neither whitespace nor '=' has a value (40 R123). -/
theorem alpha_upper_ws_or_pad {c : Byte} (h : c = padChar ∨ isWS c = true) (aliasEn : Bool) :
    alpha (upper c) aliasEn = none := by
  have hcode : c.toNat ≤ 0x20 ∨ c.toNat = 0x3D := by
    obtain rfl | hws := h
    · exact .inr rfl
    · refine .inl (not_lt.mp fun hlt => ?_)
      simp [isWS_eq_false hlt] at hws
  rw [upper_of_not_lower (by omega), alpha_eq_none (by omega)]

/-! ### Letter case and the lookalikes -/

/-- Upper changes small letters alone, and into capitals (40 R122). -/
theorem upper_eq_or_capital (c : Byte) :
    upper c = c ∨ (0x61 ≤ c.toNat ∧ 0x41 ≤ (upper c).toNat ∧ (upper c).toNat ≤ 0x5A) := by
  by_cases h : 0x61 ≤ c.toNat ∧ c.toNat ≤ 0x7A
  · have := toNat_upper_of_lower h
    omega
  · exact .inl (upper_of_not_lower h)

theorem upper_upper (c : Byte) : upper (upper c) = upper c := by
  obtain h | ⟨-, -, h⟩ := upper_eq_or_capital c
  · rw [h, h]
  · exact upper_of_not_lower (by omega)

theorem isWS_upper (c : Byte) : isWS (upper c) = isWS c := by
  obtain h | ⟨h, h', -⟩ := upper_eq_or_capital c
  · rw [h]
  · rw [isWS_eq_false (by omega), isWS_eq_false (by omega)]

theorem upper_eq_padChar_iff (c : Byte) : upper c = padChar ↔ c = padChar := by
  obtain h | ⟨h, h', -⟩ := upper_eq_or_capital c
  · rw [h]
  · have hpad : padChar.toNat = 0x3D := rfl
    rw [BitVec.toNat_eq, BitVec.toNat_eq, hpad]
    omega

/-- Writing 0, 1 and 8 for the letters O, I and B (40 R121). -/
def lookalike (c : Byte) : Byte :=
  if c = 0x4F#8 then 0x30#8 else if c = 0x49#8 then 0x31#8 else if c = 0x42#8 then 0x38#8 else c

theorem lookalike_cases (c : Byte) :
    (c = 0x4F#8 ∧ lookalike c = 0x30#8) ∨ (c = 0x49#8 ∧ lookalike c = 0x31#8) ∨
      (c = 0x42#8 ∧ lookalike c = 0x38#8) ∨ lookalike c = c := by
  unfold lookalike
  split_ifs <;> simp [*]

theorem isWS_lookalike (c : Byte) : isWS (lookalike c) = isWS c := by
  obtain ⟨rfl, h⟩ | ⟨rfl, h⟩ | ⟨rfl, h⟩ | h := lookalike_cases c <;> rw [h] <;> rfl

theorem lookalike_eq_padChar_iff (c : Byte) : lookalike c = padChar ↔ c = padChar := by
  obtain ⟨rfl, h⟩ | ⟨rfl, h⟩ | ⟨rfl, h⟩ | h := lookalike_cases c <;> rw [h] <;> decide

/-- With aliases on a lookalike has its letter's value (30 R98). -/
theorem alpha_upper_lookalike (c : Byte) : alpha (upper (lookalike c)) true = alpha (upper c) true := by
  obtain ⟨rfl, h⟩ | ⟨rfl, h⟩ | ⟨rfl, h⟩ | h := lookalike_cases c <;> rw [h] <;> rfl

/-- With aliases off no lookalike has a value (30 R98). -/
theorem alpha_upper_alias_off {c : Byte} (h : c = 0x30#8 ∨ c = 0x31#8 ∨ c = 0x38#8) : alpha (upper c) false = none := by
  obtain rfl | rfl | rfl := h <;> rfl

end Sys2Proof.Machine
end

section
/-! SUPPORT. Bit streams: the bits of a list of values from the left, and what the two repacking loops do to them (40
R127, R132). -/

namespace Sys2Proof.Machine

/-- Bit i of the values of l written one after another, most significant bit first; false behind their end. -/
def bitAt {w : Nat} (l : List (BitVec w)) (i : Nat) : Bool := (l[i / w]?.map (·.getMsbD (i % w))).getD false

/-- Bit i of what a loop has still to give out: its nb buffered bits, then the bits of its unread input. -/
def pendingBit {w : Nat} (acc nb : Nat) (l : List (BitVec w)) (i : Nat) : Bool :=
  if i < nb then acc.testBit (nb - 1 - i) else bitAt l (i - nb)

variable {w k acc nb i : Nat}

/-! ### Bits of a list -/

@[simp] theorem bitAt_nil : bitAt ([] : List (BitVec w)) i = false := rfl

theorem bitAt_cons (hw : 0 < w) (v : BitVec w) (l : List (BitVec w)) :
    bitAt (v :: l) i = if i < w then v.getMsbD i else bitAt l (i - w) := by
  split
  · next h => simp [bitAt, Nat.div_eq_of_lt h, Nat.mod_eq_of_lt h]
  · next h =>
    rw [bitAt, bitAt, Nat.div_eq_sub_div hw (by omega), Nat.mod_eq_sub_mod (by omega), List.getElem?_cons_succ]

/-- Inside the list the bit is that of its value. -/
theorem getElem?_map_getMsbD {l : List (BitVec w)} (hi : i < w * l.length) :
    l[i / w]?.map (·.getMsbD (i % w)) = some (bitAt l i) := by
  rw [bitAt, List.getElem?_eq_getElem (Nat.div_lt_of_lt_mul hi), Option.map_some, Option.getD_some]

/-- Lists of one length are equal where their bits are. -/
theorem eq_of_bitAt_eq (hw : 0 < w) {l l' : List (BitVec w)} (hlen : l.length = l'.length)
    (h : ∀ i, i < w * l.length → bitAt l i = bitAt l' i) : l = l' := by
  induction l generalizing l' with
  | nil => exact (List.length_eq_zero_iff.mp hlen.symm).symm
  | cons v l ih =>
    obtain _ | ⟨v', l'⟩ := l'
    · cases hlen
    rw [List.length_cons, Nat.mul_succ] at h
    congr 1
    · refine BitVec.eq_of_getMsbD_eq fun i hi => ?_
      simpa [bitAt_cons hw, hi] using h i (by omega)
    · refine ih (by simpa using hlen) fun i hi => ?_
      simpa [bitAt_cons hw] using h (i + w) (by omega)

/-! ### The loops' buffer -/

@[simp] theorem pendingBit_empty (l : List (BitVec w)) : pendingBit acc 0 l i = bitAt l i := rfl

/-- Reading one value moves its bits into the buffer. -/
theorem pendingBit_cons (hw : 0 < w) (v : BitVec w) (l : List (BitVec w)) :
    pendingBit acc nb (v :: l) i = pendingBit ((acc <<< w) ||| v.toNat) (nb + w) l i := by
  rw [pendingBit, pendingBit, bitAt_cons hw, Nat.testBit_or, Nat.testBit_shiftLeft, BitVec.testBit_toNat]
  by_cases h1 : i < nb
  · rw [if_pos h1, if_pos (by omega), BitVec.getLsbD_of_ge _ _ (by omega), Bool.or_false, decide_eq_true (by omega),
      Bool.true_and]
    congr 1
    omega
  · by_cases h2 : i - nb < w
    · rw [if_neg h1, if_pos h2, if_pos (by omega), decide_eq_false (by omega), Bool.false_and, Bool.false_or,
        BitVec.getMsbD_eq_getLsbD, decide_eq_true h2, Bool.true_and]
      congr 1
      omega
    · rw [if_neg h1, if_neg h2, if_neg (by omega), Nat.sub_sub]

/-- Giving out k bits leaves the others. -/
theorem pendingBit_masked (hk : k ≤ nb) (l : List (BitVec w)) :
    pendingBit (acc &&& ((1 <<< (nb - k)) - 1)) (nb - k) l i = pendingBit acc nb l (i + k) := by
  rw [pendingBit, pendingBit, Nat.one_shiftLeft, Nat.testBit_and, Nat.testBit_two_pow_sub_one]
  by_cases h : i < nb - k
  · rw [if_pos h, if_pos (by omega), decide_eq_true (by omega), Bool.and_true]
    congr 1
    omega
  · rw [if_neg h, if_neg (by omega)]
    congr 1
    omega

/-- The top k buffered bits, as a value, are the first k pending bits. -/
theorem getMsbD_topBits (hk : k ≤ nb) (hi : i < k) (l : List (BitVec w)) :
    (BitVec.ofNat k ((acc >>> (nb - k)) &&& (2 ^ k - 1))).getMsbD i = pendingBit acc nb l i := by
  rw [pendingBit, if_pos (by omega), BitVec.getMsbD_eq_getLsbD, BitVec.getLsbD_ofNat, Nat.testBit_and,
    Nat.testBit_shiftRight, Nat.testBit_two_pow_sub_one, decide_eq_true hi, decide_eq_true (by omega), Bool.true_and,
    Bool.true_and, Bool.and_true]
  congr 1
  omega

/-- A round that gives out the top k buffered bits is right where the rest of the loop is right on the others. -/
theorem bitAt_topBits_cons (hk : 0 < k) (hnb : k ≤ nb) {l : List (BitVec w)} {out : List (BitVec k)}
    (h : k ≤ i → bitAt out (i - k) = pendingBit (acc &&& ((1 <<< (nb - k)) - 1)) (nb - k) l (i - k)) :
    bitAt (BitVec.ofNat k ((acc >>> (nb - k)) &&& (2 ^ k - 1)) :: out) i = pendingBit acc nb l i := by
  rw [bitAt_cons hk]
  split
  · next hi => exact getMsbD_topBits hnb hi l
  · next hi => rw [h (by omega), pendingBit_masked hnb, Nat.sub_add_cancel (by omega)]

/-- Zeros put behind the last buffered bits change no bit. -/
theorem pendingBit_zeroFilled (m : Nat) :
    pendingBit (w := w) (acc <<< m) (nb + m) [] i = pendingBit (w := w) acc nb [] i := by
  rw [pendingBit, pendingBit, bitAt_nil, bitAt_nil, Nat.testBit_shiftLeft]
  by_cases h : i < nb
  · rw [if_pos h, if_pos (by omega), decide_eq_true (by omega), Bool.true_and]
    congr 1
    omega
  · rw [if_neg h]
    split
    · rw [decide_eq_false (by omega), Bool.false_and]
    · rfl

/-! ### Repack5to8 and Repack8to5 -/

theorem bitAt_repack5to8From {vals : List (BitVec 5)} (hnb : nb < 8) (hi : i < 8 * ((nb + 5 * vals.length) / 8)) :
    bitAt (repack5to8From acc nb vals) i = pendingBit acc nb vals i := by
  induction vals generalizing acc nb i with
  | nil => simp only [List.length_nil] at hi; omega
  | cons v vals ih =>
    rw [List.length_cons] at hi
    rw [pendingBit_cons (by decide), repack5to8From]
    split
    · next h8 => exact bitAt_topBits_cons (by decide) h8 fun _ => ih (by omega) (by omega)
    · exact ih (by omega) (by omega)

/-- The decoder gives out the bits of its values, as far as they fill bytes (40 R127). -/
theorem bitAt_repack5to8 {vals : List (BitVec 5)} (hi : i < 8 * (5 * vals.length / 8)) :
    bitAt (repack5to8 vals) i = bitAt vals i :=
  bitAt_repack5to8From (by decide) (by rwa [Nat.zero_add])

theorem bitAt_repack8to5From {fuel : Nat} {d : List Byte} (hfuel : nb + 8 * d.length ≤ 5 * fuel) :
    bitAt (repack8to5From fuel acc nb d) i = pendingBit acc nb d i := by
  induction fuel generalizing acc nb d i with
  | zero =>
    obtain rfl : nb = 0 := by omega
    obtain rfl : d = [] := List.length_eq_zero_iff.mp (by omega)
    rfl
  | succ fuel ih =>
    rw [repack8to5From.eq_def]
    dsimp only
    split
    · next hlt =>
      split
      · next b d =>
        rw [List.length_cons] at hfuel
        rw [pendingBit_cons (by decide)]
        exact bitAt_topBits_cons (by decide) (by omega) fun _ => ih (by omega)
      · split
        · next h0 =>
          rw [h0]
          rfl
        · rw [← pendingBit_zeroFilled (5 - nb), Nat.add_sub_cancel' hlt.le]
          exact bitAt_topBits_cons (by decide) le_rfl fun _ => ih (by simp)
    · exact bitAt_topBits_cons (by decide) (by omega) fun _ => ih (by omega)

/-- The encoder gives out the bits of its bytes, and zeros behind them (40 R132). -/
theorem bitAt_repack8to5 (d : List Byte) : bitAt (repack8to5 d) i = bitAt d i :=
  bitAt_repack8to5From (by omega)

/-- The encoder's characters hold enough bits for every byte and too few for another one (40 R135). -/
@[simp] theorem decodedLength_encodedLength (n : Nat) : decodedLength (encodedLength n) = n := by
  simp only [decodedLength, encodedLength, cdiv]
  omega

/-- The decoder's loop undoes the encoder's: it finds the same bits and cuts them into the same bytes (40 R135). -/
@[simp] theorem repack5to8_repack8to5 (d : List Byte) : repack5to8 (repack8to5 d) = d := by
  have hlen : (repack5to8 (repack8to5 d)).length = d.length := by simp
  refine eq_of_bitAt_eq (by decide) hlen fun i hi => ?_
  rw [length_repack5to8] at hi
  rw [bitAt_repack5to8 hi, bitAt_repack8to5]

end Sys2Proof.Machine
end

section
/-! SUPPORT. The encoder's text: its length, its characters, and what the decoder reads from it (40 R130 to R135). -/

namespace Sys2Proof.Machine

theorem encodedLength_eq (n : Nat) : encodedLength n = (8 * n + 4) / 5 := rfl

/-- The table of R133: q whole groups, and what r bytes more take. -/
theorem encodedLength_and_padCount {q r : Nat} (hr : r < 5) :
    encodedLength (5 * q + r) = 8 * q + [0, 2, 4, 5, 7].getD r 0 ∧
      padCount true (encodedLength (5 * q + r)) = [0, 6, 4, 3, 1].getD r 0 := by
  rw [padCount, if_pos rfl, encodedLength_eq]
  interval_cases r <;> simp only [List.getD_cons_zero, List.getD_cons_succ] <;> omega

theorem encodeText_false (d : List Byte) : encodeText false d = (repack8to5 d).map alphabet := List.append_nil _

theorem encodeText_true (d : List Byte) :
    encodeText true d = encodeText false d ++ List.replicate (padCount true (encodedLength d.length)) padChar := by
  rw [encodeText_false, encodeText]

theorem length_encodeText_false (d : List Byte) : (encodeText false d).length = encodedLength d.length := by
  rw [length_encodeText]
  rfl

theorem mem_encodeText {pad : Bool} {d : List Byte} {c : Byte} (hc : c ∈ encodeText pad d) :
    (∃ v, c = alphabet v) ∨ c = padChar := by
  rw [encodeText, List.mem_append, List.mem_map] at hc
  obtain ⟨v, -, rfl⟩ | hc := hc
  · exact .inl ⟨v, rfl⟩
  · exact .inr (List.eq_of_mem_replicate hc)

/-- Trim takes the padding off and nothing else, for the alphabet holds neither whitespace nor '='. -/
theorem trim_encodeText (pad : Bool) (d : List Byte) : trim (encodeText pad d) = (repack8to5 d).map alphabet := by
  have hcode : ∀ c ∈ (repack8to5 d).map alphabet, isWS c = false ∧ c ≠ padChar := by
    intro c hc
    obtain ⟨v, -, rfl⟩ := List.mem_map.mp hc
    have hrange := alphabet_range v
    refine ⟨isWS_eq_false (by omega), fun h => ?_⟩
    rw [h] at hrange
    exact absurd hrange (by decide)
  simpa [encodeText] using trim_eq (a := []) (b := []) (k := padCount pad (encodedLength d.length)) (by simp) (by simp)
    (fun c hc => (hcode c (List.mem_of_head? hc)).1)
    (fun c hc => ⟨(hcode c (List.mem_of_getLast? hc)).2, fun _ => (hcode c (List.mem_of_getLast? hc)).1⟩)

/-- The decoder reads the encoder's indices back, padded or not, aliases on or off (40 R135). -/
theorem textValues_trim_encodeText (aliasEn pad : Bool) (d : List Byte) :
    textValues aliasEn (trim (encodeText pad d)) = some (repack8to5 d) := by
  rw [trim_encodeText, textValues_map_alphabet]

end Sys2Proof.Machine
end

section
/-! PROOFS. The codec: what Trim leaves, the bits both ways, the lengths, and the round trip (40 R120 to R135). -/

namespace Sys2Proof.Machine

/-- Settles O40: the text is what Trim leaves with what stood around it, and neither whitespace nor '=' has a value. -/
theorem trimStripsOnce : Obligations.TrimStripsOnce := by
  refine ⟨isWS_iff, exists_trim_parts, fun t aliasEn ⟨c, hc, h⟩ => ?noValue, by decide, by decide⟩
  case noValue => exact textValues_eq_none hc (alpha_upper_ws_or_pad h aliasEn)

/-- Settles O43: the decoder's loop keeps the stream of bits. -/
theorem decodedBytesAreTheValuesBits : Obligations.DecodedBytesAreTheValuesBits := by
  refine ⟨fun vals => ⟨length_repack5to8 vals, fun i hi => ?bits⟩, by decide⟩
  case bits =>
    have hout : i < 8 * (repack5to8 vals).length := by rwa [length_repack5to8]
    rw [getElem?_map_getMsbD hout, getElem?_map_getMsbD (by omega), bitAt_repack5to8 hi]

/-- Settles O44: the encoder's loop keeps the stream of bits, and behind its end they are zeros. -/
theorem encodedIndicesAreTheBytesBits : Obligations.EncodedIndicesAreTheBytesBits := by
  refine fun d => ⟨length_repack8to5 d, fun i hi => ?bits, encodeText_false d⟩
  case bits =>
    rw [getElem?_map_getMsbD hi, bitAt_repack8to5]
    rfl

/-- Settles O45, by the table of R133. -/
theorem encodedTextHasItsLength : Obligations.EncodedTextHasItsLength := by
  intro d q r hd hr
  obtain ⟨hc, hp⟩ := encodedLength_and_padCount (q := q) hr
  rw [← hd] at hc hp
  have hpad : padCount true (encodedLength d.length) = (8 - encodedLength d.length % 8) % 8 := rfl
  exact ⟨encodedLength d.length, padCount true (encodedLength d.length), hc, hp, hpad, encodedLength_eq _, by omega,
    length_encodeText_false d, length_encodeText true d, encodeText_true d⟩

/-- Settles O46: Trim takes the padding off, the alphabet is read back, and one loop undoes the other. -/
theorem codecRoundTrip : Obligations.CodecRoundTrip := by
  refine fun d pad aliasEn => ⟨?decode, fun c hc => ?noAlias, ?length⟩
  case decode => rw [textValues_trim_encodeText, Option.map_some, repack5to8_repack8to5]
  case noAlias =>
    obtain ⟨v, rfl⟩ | rfl := mem_encodeText hc
    · exact alphabet_ne_zero_one_eight v
    · decide
  case length =>
    rw [length_encodeText_false]
    exact decodedLength_encodedLength _

/-- Settles O48: both maps keep whitespace and '=' apart and every character's value, and no lookalike is stripped. -/
theorem decodingIgnoresCaseAndAliases : Obligations.DecodingIgnoresCaseAndAliases := by
  have htrimUpper := trim_map isWS_upper upper_eq_padChar_iff
  have htrimAlias := trim_map isWS_lookalike lookalike_eq_padChar_iff
  have hupper (aliasEn : Bool) := textValues_map (aliasEn := aliasEn) (f := upper) fun c => by rw [upper_upper]
  have halias := textValues_map alpha_upper_lookalike
  refine ⟨fun t => ⟨htrimUpper t, htrimAlias t⟩, fun t aliasEn => ⟨hupper aliasEn t, ?letterCase⟩,
    fun t => ⟨halias t, ?lookalike⟩, fun t ⟨c, hc, h⟩ => ?off⟩
  case letterCase => rw [htrimUpper, hupper]
  case lookalike => exact congrArg (Option.map repack5to8) ((congrArg _ (htrimAlias t)).trans (halias _))
  case off =>
    have hkept : isWS c = false ∧ c ≠ padChar := by obtain rfl | rfl | rfl := h <;> decide
    exact ⟨textValues_eq_none hc (alpha_upper_alias_off h),
      textValues_eq_none (mem_trim hc hkept.1 hkept.2) (alpha_upper_alias_off h)⟩

end Sys2Proof.Machine
end

section
/-! PROOFS. B32DEC and B32ENC on the machine, and the frame of the commands that store (40 R125 to R135; 41 R160). -/

namespace Sys2Proof.Machine

/-! ### Success, from the operands -/

/-- STATUS after success, as the Host reads it: DONE alone (10 R25, R43). -/
theorem word_completeOk (w : CmdWrites) (s : State) : (completeOk w s).csr.status.word = 0x00000002#32 := by
  rw [completeOk_csr_status]
  rfl

/-- B32DEC succeeds where its source fits, its text has values and their bytes fit (40 R125). -/
theorem exec_b32dec_of_values {pad : Bool} {s : State} {text : List Byte} {vals : List (BitVec 5)}
    (hsrc : InBuf s.params.bufBytes (u32 s.snap.srcAddr) (u32 s.snap.srcLen))
    (hread : memRead s.buf (u32 s.snap.srcAddr) (u32 s.snap.srcLen) = some text)
    (hvals : textValues s.snap.aliasEn (trim text) = some vals)
    (hdst : InBuf s.params.bufBytes (u32 s.snap.dstAddr) (decodedLength vals.length)) :
    exec (.b32dec false pad) s = .next (completeOk
      { dst := u32 s.snap.dstAddr, out := repack5to8 vals,
        resLen := some (BitVec.ofNat 32 (decodedLength vals.length)), resToken := none, resCnt := none } s) := by
  rw [exec_eq_complete, commandOutcome, b32decCommand, if_neg Bool.false_ne_true, if_neg (not_not.mpr hsrc), hread]
  simp only [hvals]
  rw [if_neg (not_not.mpr hdst), complete_ok]

/-- B32ENC succeeds where its range lies in its source, both windows fit and the range was written (40 R130, R131). -/
theorem exec_b32enc_of_bytes {pad : Bool} {s : State} {d : List Byte}
    (hoff : 0 ≤ s32 s.snap.offset) (hlen : 0 ≤ s32 s.snap.length)
    (hrange : s32 s.snap.offset + s32 s.snap.length ≤ (u32 s.snap.srcLen : Int)) (hlimit : s32 s.snap.length < 2 ^ 28)
    (hsrc : InBuf s.params.bufBytes (u32 s.snap.srcAddr) (u32 s.snap.srcLen))
    (hread : memRead s.buf (u32 s.snap.srcAddr + (s32 s.snap.offset).toNat) (s32 s.snap.length).toNat = some d)
    (hdst : InBuf s.params.bufBytes (u32 s.snap.dstAddr) (encodeText pad d).length) :
    exec (.b32enc false pad) s = .next (completeOk
      { dst := u32 s.snap.dstAddr, out := encodeText pad d,
        resLen := some (BitVec.ofNat 32 (encodeText pad d).length), resToken := none, resCnt := none } s) := by
  rw [length_encodeText, memRead_length hread] at hdst ⊢
  rw [exec_eq_complete, commandOutcome, b32encCommand, if_neg Bool.false_ne_true, if_neg hoff.not_gt,
    if_neg hlen.not_gt, if_neg hrange.not_gt, if_neg hlimit.not_ge, if_neg (not_not.mpr hsrc)]
  dsimp only
  rw [if_neg (not_not.mpr hdst), hread, complete_ok]

/-- Settles O29: the decoded bytes are one window write. -/
theorem b32decWritesTheDecodedBytes : Obligations.B32decWritesTheDecodedBytes := by
  intro pad s text vals hsrc hread hvals hdst
  refine ⟨_, exec_b32dec_of_values hsrc hread (textValues_eq_some.mpr hvals) hdst, rfl, word_completeOk ..,
    fun a => ?buf, rfl, rfl, rfl, rfl, rfl⟩
  case buf =>
    rw [completeOk_buf, readByte?_memWrite, length_repack5to8]
    rfl

/-- What the encoder's text leaves at every index: its characters, its padding, and BUF around them (40 R130). -/
theorem readByte?_memWrite_encodeText (m : Memory) (dst a : Nat) (pad : Bool) (d : List Byte) :
    readByte? (memWrite m dst (encodeText pad d)) a =
      let c := encodedLength d.length
      if dst ≤ a ∧ a < dst + c then (repack8to5 d)[a - dst]?.map alphabet
      else if dst + c ≤ a ∧ a < dst + c + padCount pad c then some padChar
      else readByte? m a := by
  dsimp only
  have hchars : ((repack8to5 d).map alphabet).length = encodedLength d.length := by simp
  rw [readByte?_memWrite, length_encodeText, encodeText]
  by_cases h1 : dst ≤ a ∧ a < dst + encodedLength d.length
  · rw [if_pos h1, if_pos (by omega), List.getElem?_append_left (by omega), List.getElem?_map]
  · rw [if_neg h1]
    split
    · rw [if_pos (by omega), List.getElem?_append_right (by omega), List.getElem?_replicate_of_lt (by omega)]
    · rw [if_neg (by omega)]

/-- Settles O30: the encoded text is one window write. -/
theorem b32encWritesTheEncodedText : Obligations.B32encWritesTheEncodedText := by
  rintro pad s d c p hoff hlen hrange hlimit hsrc hc hp hdst hread
  obtain rfl : c = encodedLength d.length := by rw [memRead_length hread, hc, encodedLength_eq]
  obtain rfl : p = padCount pad (encodedLength d.length) := hp
  rw [← length_encodeText] at hdst
  refine ⟨_, exec_b32enc_of_bytes hoff hlen hrange hlimit hsrc hread hdst, ?csr, word_completeOk .., fun a => ?buf,
    rfl, rfl, rfl, rfl, rfl⟩
  case csr =>
    rw [← length_encodeText]
    rfl
  case buf => exact readByte?_memWrite_encodeText ..

/-- Settles O39: no value takes no byte, and a window of no bytes is always in range. -/
theorem emptyTextDecodesToNothing : Obligations.EmptyTextDecodesToNothing := by
  have hparts (a b : List Byte) (k : Nat) (ha : ∀ c ∈ a, isWS c = true) (hb : ∀ c ∈ b, isWS c = true) :
      trim (a ++ List.replicate k padChar ++ b) = [] := by
    simpa using trim_eq (m := []) (k := k) ha hb (by simp) (by simp)
  refine ⟨fun pad s text hsrc hread htrim => ?exec, fun text hws => ?blank, hparts, by decide, by decide, by decide⟩
  case exec =>
    have hvals : textValues s.snap.aliasEn (trim text) = some [] := by rw [htrim]; rfl
    exact ⟨_, exec_b32dec_of_values hsrc hread hvals (.inl rfl), rfl, rfl, rfl⟩
  case blank => simpa using hparts text [] 0 hws (by simp)

/-! ### The round trip -/

/-- A word that is not negative is its own value (00 R10). -/
theorem ofNat_toNat_s32 {v : Word} (h : 0 ≤ s32 v) : BitVec.ofNat 32 (s32 v).toNat = v := by
  rw [s32, BitVec.toInt_eq_toNat_of_lt (BitVec.toInt_pos_iff.mp h), Int.toNat_natCast, BitVec.ofNat_toNat,
    BitVec.setWidth_eq]

/-- A completion without ERR is a success of the command (10 R43). -/
theorem exec_ok_of_err_eq_false {i : Instr} {s t : State} (h : exec i s = .next t) (herr : t.csr.status.err = false) :
    ∃ w, commandOutcome i s.snap s.params.bufBytes s.buf = .ok w ∧ t = completeOk w s := by
  rw [exec_eq_complete] at h
  obtain hok | ⟨code, param, -, rfl⟩ := complete_eq_next.mp h
  · exact hok
  · cases herr

/-- Settles O47: the text B32ENC left is read whole, and B32DEC writes the bytes the encoder read. -/
theorem encodeThenDecodeOnTheMachine : Obligations.EncodeThenDecodeOnTheMachine := by
  intro s t pad pad' S henc herr hsrcAddr hsrcLen hdst
  obtain ⟨w, hok, rfl⟩ := exec_ok_of_err_eq_false henc herr
  obtain ⟨-, -, hlen, -, -, -, hfit, d, hread, rfl⟩ := b32encCommand_ok hok
  rw [← memRead_length hread, ← length_encodeText] at hfit
  have hwindow : u32 S.srcAddr = u32 s.snap.dstAddr := congrArg u32 hsrcAddr
  have hwhole : u32 S.srcLen = (encodeText pad d).length := by
    rw [hsrcLen, completeOk_csr_resLen, Option.getD_some, ← memRead_length hread, ← length_encodeText]
    exact toNat_ofNat_of_inBuf hfit
  have hbytes : decodedLength (repack8to5 d).length = (s32 s.snap.length).toNat := by
    rw [length_repack8to5, decodedLength_encodedLength, memRead_length hread]
  refine ⟨_, exec_b32dec_of_values (text := encodeText pad d) (vals := repack8to5 d) ?src ?text ?vals ?dst, rfl,
    ?resLen, ?bytes⟩
  case src => rwa [hwindow, hwhole]
  case text =>
    rw [hwindow, hwhole]
    exact memRead_memWrite ..
  case vals => exact textValues_trim_encodeText ..
  case dst => rwa [hbytes]
  case resLen => rw [completeOk_csr_resLen, Option.getD_some, hbytes, ofNat_toNat_s32 hlen]
  case bytes =>
    rw [hread, ← memRead_length hread, completeOk_buf, repack5to8_repack8to5]
    exact memRead_memWrite ..

/-! ### The frame -/

/-- What a command that stores writes when it succeeds: RES_LEN bytes from DST_ADDR, no RES_CNT, and RES_TOKEN from
HOTPGEN alone (10 R36 to R38). -/
theorem storedWrites_of_ok {n p : Bool} {i : Instr} {S : Snapshot} {N : Nat} {m : Memory} {w : CmdWrites}
    (hi : i ∈ [Instr.b32dec n p, .b32enc n p, .hotpgen n p]) (h : commandOutcome i S N m = .ok w) :
    w.dst = u32 S.dstAddr ∧ InBuf N w.dst w.out.length ∧ w.resLen = some (BitVec.ofNat 32 w.out.length) ∧
      w.resCnt = none ∧ (i ≠ .hotpgen n p → w.resToken = none) := by
  simp only [List.mem_cons, List.not_mem_nil, or_false] at hi
  obtain rfl | rfl | rfl := hi
  · obtain ⟨-, -, text, vals, -, -, hfit, rfl⟩ := b32decCommand_ok h
    rw [← length_repack5to8] at hfit ⊢
    exact ⟨rfl, hfit, rfl, rfl, fun _ => rfl⟩
  · obtain ⟨-, -, -, -, -, -, hfit, d, hread, rfl⟩ := b32encCommand_ok h
    rw [← memRead_length hread, ← length_encodeText] at hfit ⊢
    exact ⟨rfl, hfit, rfl, rfl, fun _ => rfl⟩
  · obtain ⟨-, -, -, -, -, -, hfit, key, -, rfl⟩ := hotpgenCommand_ok h
    exact ⟨rfl, by simpa using hfit, by simp, rfl, fun hne => absurd rfl hne⟩

/-- Settles O37: success writes one window and the result registers of the command, failure STATUS alone. -/
theorem frameOfCommandsThatStore : Obligations.FrameOfCommandsThatStore := by
  intro n p s t i hi hexec
  rw [exec_eq_complete] at hexec
  obtain ⟨w, ho, rfl⟩ | ⟨code, param, -, rfl⟩ := complete_eq_next.mp hexec
  · obtain ⟨hdst, hfit, hlen, hcnt, htok⟩ := storedWrites_of_ok hi ho
    refine ⟨?csr, fun hne => ?token, rfl, rfl, rfl, rfl, rfl, fun herr => ?noError, fun _ a ha => ?frame⟩
    case csr => simp [completeOk, CmdWrites.applyRegs, hcnt]
    case token => rw [completeOk_csr_resToken, htok hne, Option.getD_none]
    case noError => cases herr
    case frame =>
      rw [completeOk_csr_resLen, hlen, Option.getD_some, toNat_ofNat_of_inBuf hfit, ← hdst] at ha
      exact readByte?_memWrite_outside ha
  · exact ⟨rfl, fun _ => rfl, rfl, rfl, rfl, rfl, rfl, fun _ => ⟨rfl, rfl, fun _ => rfl⟩, fun _ _ _ => rfl⟩

end Sys2Proof.Machine
end

section
/-! SUPPORT. SHA-1 and HMAC: padding, words, schedule, rounds and the block key, each read off its definition
(41 R170 to R175). -/

namespace Sys2Proof.Machine

/-! ### Padding and words -/

/-- The zeros of the padding fill up to 56 bytes of the last block (41 R171). -/
theorem sha1ZeroCount_mod (len : Nat) : (len + 1 + sha1ZeroCount len) % 64 = 56 := by
  rw [sha1ZeroCount]
  omega

/-- No smaller number of zeros does (41 R171). -/
theorem sha1ZeroCount_least {len j : Nat} (h : j < sha1ZeroCount len) : (len + 1 + j) % 64 ≠ 56 := by
  rw [sha1ZeroCount] at h
  omega

theorem length_sha1Pad (msg : List Byte) :
    (sha1Pad msg).length = msg.length + 1 + sha1ZeroCount msg.length + 8 := by
  simp only [sha1Pad, List.length_append, List.length_singleton, List.length_replicate, length_beBytes]

/-- Word t of a block (41 R171). -/
theorem getElem?_sha1BlockWords (block : List Byte) {t : Nat} (h : t < 16) :
    (sha1BlockWords block)[t]? = some (BitVec.ofNat 32 (beVal ((block.drop (4 * t)).take 4))) := by
  rw [sha1BlockWords, List.getElem?_map, getElem?_pieces 4 block h, Option.map_some]

/-- The model's rotation is the library's (41 R172). -/
theorem rotl_eq_rotateLeft {n : Nat} (h : n < 32) (x : Word) : rotl n x = x.rotateLeft n := by
  rw [rotl, BitVec.rotateLeft_def, Nat.mod_eq_of_lt h]

/-! ### The schedule -/

/-- The word that follows the words ws, the newest of them first (41 R172). -/
def sha1NextWord (ws : List Word) : Word :=
  (ws.getD 2 0#32 ^^^ ws.getD 7 0#32 ^^^ ws.getD 13 0#32 ^^^ ws.getD 15 0#32).rotateLeft 1

/-- Extending by one word more puts the next word in front. -/
theorem sha1Extend_succ (n : Nat) (ws : List Word) :
    sha1Extend (n + 1) ws = sha1NextWord (sha1Extend n ws) :: sha1Extend n ws := by
  induction n generalizing ws with
  | zero => rw [sha1Extend, sha1Extend, sha1Extend, rotl_eq_rotateLeft (by decide), sha1NextWord]
  | succ n ih => rw [sha1Extend, ih, ← sha1Extend]

@[simp] theorem length_sha1Extend (n : Nat) (ws : List Word) : (sha1Extend n ws).length = n + ws.length := by
  induction n with
  | zero => rw [sha1Extend, Nat.zero_add]
  | succ n ih => rw [sha1Extend_succ, List.length_cons, ih, Nat.add_right_comm]

/-- Behind its k newest words stands the schedule that is k words shorter. -/
theorem drop_sha1Extend (k n : Nat) (ws : List Word) : (sha1Extend (k + n) ws).drop k = sha1Extend n ws := by
  induction k with
  | zero => rw [Nat.zero_add, List.drop_zero]
  | succ k ih => rw [Nat.add_right_comm, sha1Extend_succ, List.drop_succ_cons, ih]

theorem getD_sha1Extend (k n j : Nat) (ws : List Word) :
    (sha1Extend (k + n) ws).getD (k + j) 0#32 = (sha1Extend n ws).getD j 0#32 := by
  rw [← drop_sha1Extend k n ws, List.getD_eq_getElem?_getD, List.getD_eq_getElem?_getD, List.getElem?_drop]

@[simp] theorem length_sha1Schedule (block : List Byte) : (sha1Schedule block).length = 80 := by
  simp [sha1Schedule]

theorem take_sha1Schedule (block : List Byte) : (sha1Schedule block).take 16 = sha1BlockWords block := by
  have hdrop := drop_sha1Extend 64 0 (sha1BlockWords block).reverse
  rw [sha1Schedule, List.take_reverse, length_sha1Extend, List.length_reverse, length_sha1BlockWords,
    Nat.add_sub_cancel, hdrop, sha1Extend, List.reverse_reverse]

/-- Word t of the schedule, counted from the newest. -/
theorem getD_sha1Schedule (block : List Byte) {t : Nat} (h : t < 80) :
    (sha1Schedule block).getD t 0#32 = (sha1Extend 64 (sha1BlockWords block).reverse).getD (79 - t) 0#32 := by
  rw [sha1Schedule, List.getD_reverse _ (by simpa using h)]
  simp

/-! ### The rounds and the blocks -/

theorem sha1Rounds_append (t : Nat) (xs ys : List Word) (h : Sha1Words) :
    sha1Rounds t (xs ++ ys) h = sha1Rounds (t + xs.length) ys (sha1Rounds t xs h) := by
  induction xs generalizing t h with
  | nil => rfl
  | cons x xs ih =>
    rw [List.cons_append, sha1Rounds, ih, sha1Rounds, List.length_cons, Nat.add_right_comm, Nat.add_assoc]

/-- The working words of a block's compression before round t (41 R174). -/
def sha1WordsAt (block : List Byte) (h : Sha1Words) (t : Nat) : Sha1Words :=
  sha1Rounds 0 ((sha1Schedule block).take t) h

/-- Round t takes the working words on with word t of the schedule (41 R174). -/
theorem sha1WordsAt_succ {block : List Byte} {t : Nat} (ht : t < 80) (h : Sha1Words) :
    sha1WordsAt block h (t + 1) = sha1Round t ((sha1Schedule block).getD t 0#32) (sha1WordsAt block h t) := by
  have hlen : t < (sha1Schedule block).length := by rwa [length_sha1Schedule]
  rw [sha1WordsAt, List.take_succ_eq_append_getElem hlen, sha1Rounds_append, List.length_take_of_le hlen.le,
    Nat.zero_add, List.getD_eq_getElem _ _ hlen, sha1WordsAt, sha1Rounds, sha1Rounds]

/-- After round 79 the rounds are done (41 R174). -/
theorem sha1WordsAt_eighty (block : List Byte) (h : Sha1Words) :
    sha1WordsAt block h 80 = sha1Rounds 0 (sha1Schedule block) h := by
  rw [sha1WordsAt, List.take_of_length_le (length_sha1Schedule block).le]

/-- H0 to H4 after the first i blocks of the padded message (41 R175). -/
def sha1WordsAfter (p : List Byte) (i : Nat) : Sha1Words :=
  ((pieces 64 (p.length / 64) p).take i).foldl sha1Compress sha1Init

theorem sha1WordsAfter_succ {p : List Byte} {i : Nat} (hi : i < p.length / 64) :
    sha1WordsAfter p (i + 1) = sha1Compress (sha1WordsAfter p i) ((p.drop (64 * i)).take 64) := by
  rw [sha1WordsAfter, List.take_add_one, getElem?_pieces 64 p hi, Option.toList_some, List.foldl_concat, sha1WordsAfter]

/-- The digest is that of the words after the last block (41 R175). -/
theorem sha1_eq_digest (msg : List Byte) :
    sha1 msg = (sha1WordsAfter (sha1Pad msg) ((sha1Pad msg).length / 64)).digest := by
  rw [sha1WordsAfter, List.take_of_length_le (length_pieces ..).le, sha1]

@[simp] theorem length_digest (h : Sha1Words) : h.digest.length = 20 := by
  simp [Sha1Words.digest]

@[simp] theorem length_sha1 (msg : List Byte) : (sha1 msg).length = 20 := length_digest _

/-! ### The key block -/

theorem hmacKeyBlock_of_le {key : List Byte} (h : key.length ≤ 64) :
    hmacKeyBlock key = key ++ List.replicate (64 - key.length) 0#8 := by
  simp only [hmacKeyBlock, if_neg h.not_gt]

/-- A long key has the block of its hash (41 R170). -/
theorem hmacKeyBlock_of_gt {key : List Byte} (h : 64 < key.length) : hmacKeyBlock key = hmacKeyBlock (sha1 key) := by
  rw [hmacKeyBlock_of_le (key := sha1 key) (by simp)]
  simp only [hmacKeyBlock, if_pos h]

/-- Zeros behind a short key are those the block is filled with (41 R170). -/
theorem hmacKeyBlock_append_zeros {key : List Byte} {k : Nat} (h : key.length + k ≤ 64) :
    hmacKeyBlock (key ++ List.replicate k 0#8) = hmacKeyBlock key := by
  rw [hmacKeyBlock_of_le (by simpa using h), hmacKeyBlock_of_le (by omega), List.append_assoc,
    List.replicate_append_replicate, List.length_append, List.length_replicate,
    show k + (64 - (key.length + k)) = 64 - key.length by omega]

theorem length_hmacKeyBlock (key : List Byte) : (hmacKeyBlock key).length = 64 := by
  have hshort {k : List Byte} (h : k.length ≤ 64) : (hmacKeyBlock k).length = 64 := by
    rw [hmacKeyBlock_of_le h]
    simpa using Nat.add_sub_cancel' h
  obtain h | h := Nat.lt_or_ge 64 key.length
  · rw [hmacKeyBlock_of_gt h, hshort (by simp)]
  · exact hshort h

/-- Keys with one block have one digest (41 R170). -/
theorem hmacSha1_congr {key key' : List Byte} (h : hmacKeyBlock key = hmacKeyBlock key') (msg : List Byte) :
    hmacSha1 key msg = hmacSha1 key' msg := by
  rw [hmacSha1, h, hmacSha1]

@[simp] theorem length_hmacSha1 (key msg : List Byte) : (hmacSha1 key msg).length = 20 := length_sha1 _

/-- Two lists combined element by element, the second a constant one as long as the first. -/
theorem zipWith_replicate_eq_map {α β γ : Type} (f : α → β → γ) (l : List α) (b : β) :
    List.zipWith f l (List.replicate l.length b) = l.map (fun a => f a b) := by
  rw [← List.map_const', List.zipWith_map_right, List.zipWith_self]

end Sys2Proof.Machine
end

section
/-! PROOFS. The keyed hash (41 R162, R170 to R175). -/

namespace Sys2Proof.Machine

/-- Settles O53: the zeros fill the last block, and a block's words are its pieces of four bytes. -/
theorem sha1PaddingMakesWholeBlocks : Obligations.Sha1PaddingMakesWholeBlocks := by
  refine ⟨fun msg => ⟨sha1ZeroCount msg.length, rfl, sha1ZeroCount_mod _, fun j => sha1ZeroCount_least, ?whole,
    fun h => ?bitLength⟩, fun block _ => ⟨length_sha1BlockWords block, fun t => getElem?_sha1BlockWords block⟩⟩
  case whole =>
    have hfill := sha1ZeroCount_mod msg.length
    rw [length_sha1Pad]
    omega
  case bitLength => exact (beVal_beBytes 8 _).trans (Nat.mod_eq_of_lt h)

/-- Settles O54: the words behind word t are the schedule it was computed from. -/
theorem sha1ScheduleFollowsItsRecurrence : Obligations.Sha1ScheduleFollowsItsRecurrence := by
  refine fun block _ => ⟨length_sha1Schedule block, take_sha1Schedule block, fun t h16 h80 => ?recurrence⟩
  case recurrence =>
    -- Word t stands at place k from the newest, n of the computed words behind it.
    obtain ⟨k, n, hk, hn⟩ : ∃ k n, t + k = 79 ∧ k + (n + 1) = 64 := ⟨79 - t, t - 16, by omega, by omega⟩
    have hword : (sha1Schedule block).getD t 0#32 =
        sha1NextWord (sha1Extend n (sha1BlockWords block).reverse) := by
      rw [getD_sha1Schedule block h80, ← hn, show 79 - t = k + 0 by omega, getD_sha1Extend, sha1Extend_succ,
        List.getD_cons_zero]
    have hback (j : Nat) (hj : j < 16) : (sha1Schedule block).getD (t - (j + 1)) 0#32 =
        (sha1Extend n (sha1BlockWords block).reverse).getD j 0#32 := by
      rw [getD_sha1Schedule block (by omega), ← hn, show 79 - (t - (j + 1)) = k + (j + 1) by omega, getD_sha1Extend,
        sha1Extend_succ, List.getD_cons_succ]
    rw [hword, sha1NextWord, hback 2 (by decide), hback 7 (by decide), hback 13 (by decide), hback 15 (by decide)]

/-- Settles O58: the functions by their ranges, and the working words before each round as the five sequences. -/
theorem sha1CompressionFollowsItsRounds : Obligations.Sha1CompressionFollowsItsRounds := by
  refine ⟨fun t b c d => ⟨fun h => ?first, fun h1 h2 => ?second, fun h1 h2 => ?third, fun h1 _ => ?fourth⟩,
    fun h block _ => ?rounds⟩
  case first => simp [sha1F, sha1K, h]
  case second => simp [sha1F, sha1K, h1.not_gt, h2]
  case third => simp [sha1F, sha1K, show ¬ t < 20 by omega, h1.not_gt, h2]
  case fourth => simp [sha1F, sha1K, show ¬ t < 20 by omega, show ¬ t < 40 by omega, h1.not_gt]
  case rounds =>
    refine ⟨fun t => (sha1WordsAt block h t).a, fun t => (sha1WordsAt block h t).b,
      fun t => (sha1WordsAt block h t).c, fun t => (sha1WordsAt block h t).d, fun t => (sha1WordsAt block h t).e,
      rfl, rfl, rfl, rfl, rfl, fun t ht => ?round, by rw [sha1Compress, ← sha1WordsAt_eighty]⟩
    case round =>
      simp only [sha1WordsAt_succ ht, sha1Round, ← rotl_eq_rotateLeft (show 5 < 32 by decide),
        ← rotl_eq_rotateLeft (show 30 < 32 by decide), and_self]

/-- Settles O59: the words after each block, and the bytes of the last ones. -/
theorem sha1StartsAndEndsAsItsRule : Obligations.Sha1StartsAndEndsAsItsRule := by
  intro msg
  refine ⟨sha1WordsAfter (sha1Pad msg), rfl, fun i => sha1WordsAfter_succ, ?digest, length_sha1 msg, ?lowByte⟩
  case digest => simp only [sha1_eq_digest, Sha1Words.digest, beBytes_word]
  case lowByte =>
    rw [sha1_eq_digest, Sha1Words.digest]
    simp only [beBytes_word]
    rfl

/-- Settles O57: the key block of a short and of a long key, and the pads element by element. -/
theorem hmacFollowsItsConstruction : Obligations.HmacFollowsItsConstruction := by
  intro key msg
  have hpad (b : Byte) : List.zipWith (fun x y => x ^^^ y) (hmacKeyBlock key) (List.replicate 64 b) =
      (hmacKeyBlock key).map (fun x => x ^^^ b) := by
    rw [← length_hmacKeyBlock key, zipWith_replicate_eq_map]
  have hblock : hmacKeyBlock key = (if 64 < key.length then sha1 key else key) ++
      List.replicate (64 - (if 64 < key.length then sha1 key else key).length) 0#8 := rfl
  refine ⟨_, hmacKeyBlock key, _, fun h => if_pos h, fun h => if_neg h.not_gt, hblock, length_hmacKeyBlock key, rfl,
    ?digest, length_hmacSha1 key msg⟩
  case digest => rw [hpad, hpad, hmacSha1]

/-- Settles O52: lengths of digests, key blocks that agree, and a remainder's bound. -/
theorem digestAndTokenAreInRange : Obligations.DigestAndTokenAreInRange :=
  ⟨length_hmacSha1, length_sha1, fun _ msg h => hmacSha1_congr (hmacKeyBlock_of_gt h) msg,
    fun _ msg _ h => hmacSha1_congr (hmacKeyBlock_append_zeros h) msg,
    fun key counter d => ⟨Nat.mod_lt _ (Nat.pow_pos (by decide)), hotpToken_lt key counter d⟩⟩

end Sys2Proof.Machine
end

section
/-! SUPPORT. HOTPGEN and TOTPCNT: truncation, the counter message and the step counter as numbers, and the
completions of the two commands from their operands (41 R160 to R168). -/

namespace Sys2Proof.Machine

/-! ### Truncation -/

/-- Four bytes at their places are one big-endian number (41 R163). -/
theorem shiftLeft_or_eq_add {x b1 b2 b3 : Nat} (h1 : b1 < 2 ^ 8) (h2 : b2 < 2 ^ 8) (h3 : b3 < 2 ^ 8) :
    x <<< 24 ||| b1 <<< 16 ||| b2 <<< 8 ||| b3 = x * 2 ^ 24 + b1 * 2 ^ 16 + b2 * 2 ^ 8 + b3 := by
  have hlow : b2 <<< 8 ||| b3 = b2 * 2 ^ 8 + b3 := by
    rw [← Nat.shiftLeft_add_eq_or_of_lt h3, Nat.shiftLeft_eq]
  have hmid : b1 <<< 16 ||| (b2 * 2 ^ 8 + b3) = b1 * 2 ^ 16 + (b2 * 2 ^ 8 + b3) := by
    rw [← Nat.shiftLeft_add_eq_or_of_lt (by omega), Nat.shiftLeft_eq]
  rw [Nat.or_assoc, Nat.or_assoc, hlow, hmid, ← Nat.shiftLeft_add_eq_or_of_lt (by omega), Nat.shiftLeft_eq,
    Nat.add_assoc, Nat.add_assoc]

/-- The low nibble of a byte is its remainder by 16 (41 R163). -/
theorem toNat_and_lowNibble (b : Byte) : (b &&& 0x0F#8).toNat = b.toNat % 16 :=
  (BitVec.toNat_and ..).trans (Nat.and_two_pow_sub_one_eq_mod b.toNat 4)

/-- A byte without its top bit is its remainder by 128 (41 R163). -/
theorem toNat_and_lowSeven (b : Byte) : (b &&& 0x7F#8).toNat = b.toNat % 128 :=
  (BitVec.toNat_and ..).trans (Nat.and_two_pow_sub_one_eq_mod b.toNat 7)

/-- The offset dynamic truncation reads at (41 R163). -/
def truncateOffset (h : List Byte) : Nat := (h.getD 19 0#8).toNat % 16

/-- Dynamic truncation as arithmetic on the four bytes it reads (41 R163). -/
theorem truncate_eq (h : List Byte) :
    truncate h = ((h.getD (truncateOffset h) 0#8).toNat % 128) * 2 ^ 24 +
      (h.getD (truncateOffset h + 1) 0#8).toNat * 2 ^ 16 + (h.getD (truncateOffset h + 2) 0#8).toNat * 2 ^ 8 +
      (h.getD (truncateOffset h + 3) 0#8).toNat := by
  simp only [truncate, toNat_and_lowNibble, toNat_and_lowSeven]
  exact shiftLeft_or_eq_add (BitVec.isLt _) (BitVec.isLt _) (BitVec.isLt _)

/-- Inside a list the default of getD is not taken. -/
theorem getElem?_eq_some_getD {α : Type} {l : List α} {i : Nat} (h : i < l.length) (d : α) :
    l[i]? = some (l.getD i d) := by
  rw [List.getD_eq_getElem l d h, List.getElem?_eq_getElem h]

/-! ### HOTPGEN -/

/-- The mask changes no counter that is not negative (41 R160, R161). -/
theorem counterMessage_of_nonneg {counter : DWord} (h : 0 ≤ s64 counter) :
    counterMessage counter = beBytes 8 counter.toNat := by
  have hlt : 2 * counter.toNat < 2 ^ 64 := BitVec.toInt_pos_iff.mp h
  rw [counterMessage, BitVec.toNat_and, show (0x7FFFFFFFFFFFFFFF#64).toNat = 2 ^ 63 - 1 by rfl,
    Nat.and_two_pow_sub_one_eq_mod, Nat.mod_eq_of_lt (by omega)]

/-- A token is its own 32-bit reading (10 R37, 41 R164). -/
theorem toNat_ofNat_hotpToken (key : List Byte) (counter : DWord) (digits : Nat) :
    (BitVec.ofNat 32 (hotpToken key counter digits)).toNat = hotpToken key counter digits := by
  have := hotpToken_lt key counter digits
  rw [BitVec.toNat_ofNat, Nat.mod_eq_of_lt (by omega)]

/-- Digit i of a token's text (30 R100). -/
theorem getElem?_decimalText (t : Nat) {d i : Nat} (h : i < d) :
    (decimalText t d)[i]? = some (BitVec.ofNat 8 (0x30 + t / 10 ^ (d - 1 - i) % 10)) := by
  simp [decimalText, h]

/-- HOTPGEN succeeds where its operands pass their checks and its key was written (41 R160). -/
theorem exec_hotpgen_of_key {pad : Bool} {s : State} {key : List Byte} {d : Nat}
    (hcounter : 0 ≤ s64 s.snap.counter) (hlen : u32 s.snap.srcLen ≠ 0) (hdigits : s32 s.snap.digits = (d : Int))
    (hd1 : 1 ≤ d) (hd10 : d ≤ 10) (hsrc : InBuf s.params.bufBytes (u32 s.snap.srcAddr) (u32 s.snap.srcLen))
    (hdst : InBuf s.params.bufBytes (u32 s.snap.dstAddr) d)
    (hread : memRead s.buf (u32 s.snap.srcAddr) (u32 s.snap.srcLen) = some key) :
    exec (.hotpgen false pad) s = .next (completeOk
      { dst := u32 s.snap.dstAddr, out := decimalText (hotpToken key s.snap.counter d) d,
        resLen := some (BitVec.ofNat 32 d), resToken := some (BitVec.ofNat 32 (hotpToken key s.snap.counter d)),
        resCnt := none } s) := by
  rw [exec_eq_complete, commandOutcome, hotpgenCommand, if_neg Bool.false_ne_true, if_neg hcounter.not_gt, if_neg hlen,
    if_neg (by omega), if_neg (not_not.mpr hsrc), hdigits, Int.toNat_natCast, if_neg (not_not.mpr hdst), hread]
  exact complete_ok ..

/-! ### TOTPCNT -/

/-- TOTPCNT with STEP > 0 succeeds (41 R165). -/
theorem exec_totpcnt_of_step_pos {s : State} (h : 0 < s32 s.snap.step) (n p : Bool) :
    exec (.totpcnt n p) s = .next (completeOk
      { dst := 0, out := [], resLen := none, resToken := none,
        resCnt := some (BitVec.ofInt 64 (stepCounter (s64 s.snap.now) (s32 s.snap.epoch) (s32 s.snap.step))) } s) := by
  rw [exec_eq_complete, commandOutcome, totpcntCommand, if_neg h.not_ge, complete_ok]

/-- TOTPCNT with STEP ≤ 0 fails with INVALID_ARGUMENT(STEP) (41 R165). -/
theorem exec_totpcnt_of_step_nonpos {s : State} (h : s32 s.snap.step ≤ 0) (n p : Bool) :
    exec (.totpcnt n p) s = .next (completeErr .invalidArgument .step s) := by
  rw [exec_eq_complete, commandOutcome, totpcntCommand, if_pos h, complete_err]

/-- A counter cut into RES_CNT's two registers and read as their pair (10 R33, R38). -/
theorem pair64_extract (q : DWord) : pair64 (q.extractLsb' 32 32) (q.extractLsb' 0 32) = q :=
  (BitVec.extractLsb'_append_extractLsb'_eq_extractLsb' (by rfl)).trans BitVec.extractLsb'_eq_self

/-- RES_CNT after a command that writes it (10 R38). -/
theorem resCnt_completeOk {w : CmdWrites} {q : DWord} (h : w.resCnt = some q) (s : State) :
    pair64 (completeOk w s).csr.resCntHi (completeOk w s).csr.resCntLo = q := by
  simp only [completeOk_csr_resCntHi, completeOk_csr_resCntLo, h, Option.map_some, Option.getD_some, pair64_extract]

/-- A quotient in the s64 range is the counter's signed reading (41 R165). -/
theorem s64_ofInt {q : Int} (hlow : -(2 ^ 63) ≤ q) (hhigh : q < 2 ^ 63) : s64 (BitVec.ofInt 64 q) = q :=
  BitVec.toInt_ofInt_eq_self (by decide) hlow hhigh

/-- Division by a positive STEP keeps the order (41 R168). -/
theorem stepCounter_le_stepCounter {now now' epoch step : Int} (hstep : 0 < step) (h : now ≤ now') :
    stepCounter now epoch step ≤ stepCounter now' epoch step :=
  Int.tdiv_le_tdiv hstep (Int.sub_le_sub_right h epoch)

/-! ### The commands that store nothing -/

/-- TOTPCNT, and the opcodes with no command (30 R94, 60 R190). -/
theorem storesNothing_cases {n p : Bool} {i : Instr}
    (hi : i ∈ [Instr.totpcnt n p, .illegal0 n p, .illegal5 n p, .illegal6 n p, .illegal7 n p, .illegal8 n p,
      .illegal9 n p, .illegalA n p, .illegalB n p, .illegalC n p, .illegalD n p, .illegalE n p, .illegalF n p])
    (S : Snapshot) (N : Nat) (m : Memory) : i = .totpcnt n p ∨ commandOutcome i S N m = illegalCommand := by
  cases i with
  | b32dec | b32enc | hotpgen => simp at hi
  | totpcnt => exact .inl (by simpa using hi)
  | _ => exact .inr rfl

end Sys2Proof.Machine
end

section
/-! PROOFS. HOTPGEN and TOTPCNT on the machine, and the frame of the commands that store nothing (41 R160 to R168). -/

namespace Sys2Proof.Machine

/-- Settles O50: the offset is at most 15, so the four bytes lie inside the digest. -/
theorem truncationReadsFourBytesAtTheOffset : Obligations.TruncationReadsFourBytesAtTheOffset := by
  intro h hlen
  have hoff : truncateOffset h < 16 := Nat.mod_lt _ (by decide)
  exact ⟨truncateOffset h, h.getD 19 0#8, _, _, _, _, getElem?_eq_some_getD (by omega) _, rfl, by omega,
    getElem?_eq_some_getD (by omega) 0#8, getElem?_eq_some_getD (by omega) 0#8, getElem?_eq_some_getD (by omega) 0#8,
    getElem?_eq_some_getD (by omega) 0#8, truncate_eq h, truncate_lt h⟩

/-- Settles O31: the digits are one window write, and the token fits its register. -/
theorem hotpgenWritesTheToken : Obligations.HotpgenWritesTheToken := by
  intro pad s key d tok hcounter hlen hdigits hd1 hd10 hsrc hdst hread htok
  obtain rfl : tok = hotpToken key s.snap.counter d := by rw [htok, hotpToken, counterMessage_of_nonneg hcounter]
  refine ⟨_, exec_hotpgen_of_key hcounter hlen hdigits hd1 hd10 hsrc hdst hread, rfl,
    toNat_ofNat_hotpToken key s.snap.counter d, word_completeOk .., fun a => ?buf, rfl, rfl, rfl, rfl, rfl⟩
  case buf =>
    rw [completeOk_buf, readByte?_memWrite, length_decimalText]
    split
    · rw [getElem?_decimalText _ (by omega)]
    · rfl

/-- Settles O32, by the sign of STEP. -/
theorem totpcntWritesTheStepCounter : Obligations.TotpcntWritesTheStepCounter := by
  refine fun n p s => ⟨fun h => ⟨_, exec_totpcnt_of_step_pos h n p, rfl, ?counter, word_completeOk ..⟩,
    fun h => ⟨_, exec_totpcnt_of_step_nonpos h n p, rfl, ?status⟩⟩
  case counter =>
    rw [← pair64, resCnt_completeOk rfl, BitVec.toNat_ofInt, Int.toNat_of_nonneg (Int.emod_nonneg _ (by decide))]
    rfl
  case status =>
    rw [completeErr_csr_status]
    rfl

/-- Settles O36: TOTPCNT writes RES_CNT alone or fails, and the others fail. -/
theorem frameOfCommandsThatStoreNothing : Obligations.FrameOfCommandsThatStoreNothing := by
  intro n p s t i hi h
  obtain rfl | hout := storesNothing_cases hi s.snap s.params.bufBytes s.buf
  · obtain hstep | hstep := lt_or_ge 0 (s32 s.snap.step)
    · rw [exec_totpcnt_of_step_pos hstep] at h
      cases h
      exact ⟨rfl, fun hne => absurd rfl hne, fun _ => rfl⟩
    · rw [exec_totpcnt_of_step_nonpos hstep] at h
      cases h
      exact ⟨rfl, fun _ => ⟨rfl, rfl⟩, fun _ => rfl⟩
  · rw [exec_eq_complete, hout, illegalCommand, complete_err] at h
    cases h
    exact ⟨rfl, fun _ => ⟨rfl, rfl⟩, fun _ => rfl⟩

/-- Settles O55, by the difference of the two divisions. -/
theorem stepCounterTruncatesTowardZero : Obligations.StepCounterTruncatesTowardZero := by
  intro now epoch step hstep
  refine ⟨fun h => ?nonneg, fun h hmod => ?between, fun _ hmod => ?multiple⟩
  case nonneg => exact (Int.fdiv_eq_tdiv_of_nonneg h hstep.le).symm
  case between =>
    have hdvd : ¬ step ∣ now - epoch := fun hdvd => hmod (Int.emod_eq_zero_of_dvd hdvd)
    rw [stepCounter, Int.tdiv_eq_fdiv, if_neg hdvd, if_neg h.not_ge, if_pos hstep.le, Int.sign_eq_one_of_pos hstep]
  case multiple => rw [stepCounter, Int.tdiv_eq_fdiv, if_pos (Int.dvd_of_emod_eq_zero hmod), Int.add_zero]

/-- Settles O56: both quotients lie in the s64 range, since the smaller is not below it nor the larger above. -/
theorem stepCounterIsMonotone : Obligations.StepCounterIsMonotone := by
  intro n p n' p' s s' t t' hepoch hstep hpos hnow h h' hlow hhigh
  rw [exec_totpcnt_of_step_pos hpos] at h
  rw [exec_totpcnt_of_step_pos (hstep ▸ hpos)] at h'
  cases h
  cases h'
  rw [← hepoch, ← hstep] at hhigh ⊢
  have hle := stepCounter_le_stepCounter (epoch := s32 s.snap.epoch) hpos hnow
  rw [resCnt_completeOk rfl, resCnt_completeOk rfl, s64_ofInt hlow (hle.trans_lt hhigh),
    s64_ofInt (hlow.trans hle) hhigh]
  exact hle

end Sys2Proof.Machine
end

section
/-! SUPPORT. The error outcomes of the command functions, an equation per check in the order of 60 R193, and the input
window as the one place where a command can be without a result (20 R70). -/

namespace Sys2Proof.Machine

/-! ### The first error of each command -/

/-- A text whose characters all have a value has as many values (40 R126). -/
theorem exists_textValues {aliasEn : Bool} {t : List Byte} (h : ∀ c ∈ t, alpha (upper c) aliasEn ≠ none) :
    ∃ vals, textValues aliasEn t = some vals ∧ vals.length = t.length := by
  induction t with
  | nil => exact ⟨[], rfl, rfl⟩
  | cons c t ih =>
    obtain ⟨hc, ht⟩ := List.forall_mem_cons.mp h
    obtain ⟨v, hv⟩ := Option.ne_none_iff_exists'.mp hc
    obtain ⟨vals, hvals, hlen⟩ := ih ht
    exact ⟨v :: vals, by rw [textValues_cons, hv, hvals]; rfl, congrArg (· + 1) hlen⟩

section FirstError

variable {S : Snapshot} {N : Nat} {m : Memory} {p : Bool}

theorem b32decCommand_err_nullInput : b32decCommand true S N m = .err .nullInput .input := rfl

theorem b32decCommand_err_src (hsrc : ¬ InBuf N (u32 S.srcAddr) (u32 S.srcLen)) :
    b32decCommand false S N m = .err .bufferRange .src := by
  rw [b32decCommand, if_neg Bool.false_ne_true, if_pos hsrc]

/-- Behind the source check, one character outside the alphabet fails the text (40 R126). -/
theorem b32decCommand_err_format (hsrc : InBuf N (u32 S.srcAddr) (u32 S.srcLen)) {text : List Byte}
    (hread : memRead m (u32 S.srcAddr) (u32 S.srcLen) = some text)
    (hbad : ∃ c ∈ trim text, alpha (upper c) S.aliasEn = none) :
    b32decCommand false S N m = .err .format .input := by
  obtain ⟨c, hc, hnone⟩ := hbad
  rw [b32decCommand, if_neg Bool.false_ne_true, if_neg (not_not.mpr hsrc), hread]
  simp only [textValues_eq_none hc hnone]

/-- A text that has values takes the destination its length says (40 R124). -/
theorem b32decCommand_err_dst (hsrc : InBuf N (u32 S.srcAddr) (u32 S.srcLen)) {text : List Byte}
    (hread : memRead m (u32 S.srcAddr) (u32 S.srcLen) = some text)
    (hgood : ∀ c ∈ trim text, alpha (upper c) S.aliasEn ≠ none)
    (hdst : ¬ InBuf N (u32 S.dstAddr) (decodedLength (trim text).length)) :
    b32decCommand false S N m = .err .bufferRange .dst := by
  obtain ⟨vals, hvals, hlen⟩ := exists_textValues hgood
  rw [b32decCommand, if_neg Bool.false_ne_true, if_neg (not_not.mpr hsrc), hread]
  simp only [hvals]
  rw [hlen, if_pos hdst]

theorem b32encCommand_err_nullInput : b32encCommand true p S N m = .err .nullInput .input := rfl

theorem b32encCommand_err_offset (hoff : s32 S.offset < 0) :
    b32encCommand false p S N m = .err .invalidArgument .offset := by
  rw [b32encCommand, if_neg Bool.false_ne_true, if_pos hoff]

theorem b32encCommand_err_length (hoff : 0 ≤ s32 S.offset) (hlen : s32 S.length < 0) :
    b32encCommand false p S N m = .err .invalidArgument .length := by
  rw [b32encCommand, if_neg Bool.false_ne_true, if_neg hoff.not_gt, if_pos hlen]

theorem b32encCommand_err_range (hoff : 0 ≤ s32 S.offset) (hlen : 0 ≤ s32 S.length)
    (hrange : (u32 S.srcLen : Int) < s32 S.offset + s32 S.length) :
    b32encCommand false p S N m = .err .invalidArgument .range := by
  rw [b32encCommand, if_neg Bool.false_ne_true, if_neg hoff.not_gt, if_neg hlen.not_gt, if_pos hrange]

theorem b32encCommand_err_lengthLimit (hoff : 0 ≤ s32 S.offset)
    (hrange : s32 S.offset + s32 S.length ≤ (u32 S.srcLen : Int)) (hlimit : 2 ^ 28 ≤ s32 S.length) :
    b32encCommand false p S N m = .err .invalidArgument .lengthLimit := by
  rw [b32encCommand, if_neg Bool.false_ne_true, if_neg hoff.not_gt, if_neg (by omega), if_neg hrange.not_gt,
    if_pos hlimit]

/-- Behind the checks of its operands, B32ENC checks its source window, then its destination window (40 R130). -/
theorem b32encCommand_err_windows (hoff : 0 ≤ s32 S.offset) (hlen : 0 ≤ s32 S.length)
    (hrange : s32 S.offset + s32 S.length ≤ (u32 S.srcLen : Int)) (hlimit : s32 S.length < 2 ^ 28) :
    (¬ InBuf N (u32 S.srcAddr) (u32 S.srcLen) → b32encCommand false p S N m = .err .bufferRange .src) ∧
    (InBuf N (u32 S.srcAddr) (u32 S.srcLen) →
      ¬ InBuf N (u32 S.dstAddr)
        (encodedLength (s32 S.length).toNat + padCount p (encodedLength (s32 S.length).toNat)) →
      b32encCommand false p S N m = .err .bufferRange .dst) := by
  rw [b32encCommand, if_neg Bool.false_ne_true, if_neg hoff.not_gt, if_neg hlen.not_gt, if_neg hrange.not_gt,
    if_neg hlimit.not_ge]
  refine ⟨fun hsrc => if_pos hsrc, fun hsrc hdst => ?_⟩
  rw [if_neg (not_not.mpr hsrc)]
  exact if_pos hdst

theorem hotpgenCommand_err_nullInput : hotpgenCommand true S N m = .err .nullInput .input := rfl

theorem hotpgenCommand_err_counter (hcounter : s64 S.counter < 0) :
    hotpgenCommand false S N m = .err .invalidArgument .counter := by
  rw [hotpgenCommand, if_neg Bool.false_ne_true, if_pos hcounter]

theorem hotpgenCommand_err_key (hcounter : 0 ≤ s64 S.counter) (hkey : u32 S.srcLen = 0) :
    hotpgenCommand false S N m = .err .invalidArgument .key := by
  rw [hotpgenCommand, if_neg Bool.false_ne_true, if_neg hcounter.not_gt, if_pos hkey]

theorem hotpgenCommand_err_digits (hcounter : 0 ≤ s64 S.counter) (hkey : u32 S.srcLen ≠ 0)
    (hdigits : s32 S.digits < 1 ∨ 10 < s32 S.digits) :
    hotpgenCommand false S N m = .err .invalidArgument .digits := by
  rw [hotpgenCommand, if_neg Bool.false_ne_true, if_neg hcounter.not_gt, if_neg hkey, if_pos hdigits]

/-- Behind the checks of its operands, HOTPGEN checks its key's window, then its destination window (41 R160). -/
theorem hotpgenCommand_err_windows (hcounter : 0 ≤ s64 S.counter) (hkey : u32 S.srcLen ≠ 0) (hd1 : 1 ≤ s32 S.digits)
    (hd10 : s32 S.digits ≤ 10) :
    (¬ InBuf N (u32 S.srcAddr) (u32 S.srcLen) → hotpgenCommand false S N m = .err .bufferRange .src) ∧
    (InBuf N (u32 S.srcAddr) (u32 S.srcLen) → ¬ InBuf N (u32 S.dstAddr) (s32 S.digits).toNat →
      hotpgenCommand false S N m = .err .bufferRange .dst) := by
  rw [hotpgenCommand, if_neg Bool.false_ne_true, if_neg hcounter.not_gt, if_neg hkey, if_neg (by omega)]
  refine ⟨fun hsrc => if_pos hsrc, fun hsrc hdst => ?_⟩
  rw [if_neg (not_not.mpr hsrc), if_pos hdst]

theorem totpcntCommand_err_step (hstep : s32 S.step ≤ 0) : totpcntCommand S = .err .invalidArgument .step :=
  if_pos hstep

end FirstError

/-- An error outcome as the Host sees it: the STATUS word of its two codes, and nothing else changed (60 R195). -/
theorem exec_of_err {i : Instr} {s : State} {code : ErrCode} {param : ErrParam} {word : Word}
    (h : commandOutcome i s.snap s.params.bufBytes s.buf = .err code param)
    (hword : (Status.failed code param).word = word) :
    ∃ t, exec i s = .next t ∧ t.csr.status.word = word ∧
      t = { s with csr := { s.csr with status := t.csr.status } } := by
  refine ⟨completeErr code param s, ?_, hword, rfl⟩
  rw [exec_eq_complete, h, complete_err]

/-! ### Commands with written input complete -/

/-- A read inside BUF fails at a byte of its window that was never written (20 R70). -/
theorem exists_unwritten_of_memRead {m : Memory} {a n N : Nat} (hfit : InBuf N a n) (hread : memRead m a n = none) :
    ∃ i, a ≤ i ∧ i < a + n ∧ i < N ∧ readByte? m i = none := by
  obtain ⟨k, hk, hnone⟩ := memRead_eq_none.mp hread
  exact ⟨a + k, by omega, by omega, by omega, hnone⟩

/-- A command without a result found a byte of its input window, inside BUF, that was never written (20 R70). -/
theorem exists_unwritten_of_noResult {S : Snapshot} {N : Nat} {m : Memory}
    (h : commandOutcome S.command S N m = .noResult .unwrittenBufByte) :
    ∃ i, (inputWindow S).1 ≤ i ∧ i < (inputWindow S).1 + (inputWindow S).2 ∧ i < N ∧ readByte? m i = none := by
  unfold inputWindow
  unfold Snapshot.command at h ⊢
  obtain ⟨-, hc⟩ | ⟨-, hc⟩ | ⟨-, hc⟩ | ⟨-, hc⟩ | ⟨-, hc⟩ := commandOf_cases S.op S.nullIn S.pad
  · rw [hc] at h ⊢
    obtain ⟨-, hsrc, hread⟩ := b32decCommand_eq_noResult.mp h
    exact exists_unwritten_of_memRead hsrc hread
  · rw [hc] at h ⊢
    obtain ⟨-, hoff, hlen, hrange, -, hsrc, -, hread⟩ := b32encCommand_eq_noResult.mp h
    have hfit : InBuf N (u32 S.srcAddr + (s32 S.offset).toNat) (s32 S.length).toNat := by omega
    exact exists_unwritten_of_memRead hfit hread
  · rw [hc] at h ⊢
    obtain ⟨-, -, -, -, hsrc, -, hread⟩ := hotpgenCommand_eq_noResult.mp h
    exact exists_unwritten_of_memRead hsrc hread
  · rw [hc] at h
    exact absurd h totpcntCommand_ne_noResult
  · rw [hc] at h
    cases h

theorem InputWritten.popInput {s : State} (h : InputWritten s) : InputWritten s.popInput := h

/-- A command in flight whose input bytes are written completes, with success or with error (10 R43). -/
theorem exec_next_of_inputWritten {s : State} (h : InputWritten s) : ∃ t, exec s.snap.command s = .next t := by
  cases ho : commandOutcome s.snap.command s.snap s.params.bufBytes s.buf with
  | ok w => exact ⟨_, by rw [exec_eq_complete, ho, complete_ok]⟩
  | err code param => exact ⟨_, by rw [exec_eq_complete, ho, complete_err]⟩
  | noResult f =>
    obtain rfl := commandOutcome_noResult ho
    obtain ⟨i, hlo, hhi, hN, hnone⟩ := exists_unwritten_of_noResult ho
    have hwritten : (readByte? s.buf i).isSome = true := h i hlo hhi hN
    rw [hnone] at hwritten
    cases hwritten

/-- Where the Core moves, the step answers next if a command about to complete finds its input written. -/
theorem step_core_next {s : State} (hc : CoreNext s) (h : s.csr.status.busy = true → InputWritten s) :
    ∃ t, step s = .next t := by
  cases hb : s.csr.status.busy with
  | false => exact ⟨_, by rw [step_core hc, coreTurn_idle (by simpa using hb)]⟩
  | true =>
    rw [step_core_busy hc hb]
    exact exec_next_of_inputWritten (h hb).popInput

/-- An access the platform admits is answered (60 R209). -/
theorem hostAccess_next_of_wellFormed {a : Access} {s : State} (h : a.wellFormed s.params = true) :
    hostAccess a s = .next (accessWindow a s) := by
  obtain ⟨hrouted, hfits⟩ := (Bool.and_eq_true _ _).mp h
  exact hostAccess_eq_next.mpr ⟨hfits, hrouted, rfl⟩

end Sys2Proof.Machine
end

section
/-! PROOFS. Errors, irq and progress (30 R94; 60 R190 to R200, R209; 70 R235). -/

namespace Sys2Proof.Machine

/-- Settles O22, by who moves next. -/
theorem theBlockIsNeverStuck : Obligations.TheBlockIsNeverStuck := by
  intro s hadmitted hwritten
  cases hi : s.inputs with
  | nil => exact step_core_next (.inl hi) (hwritten (.inl hi))
  | cons i rest =>
    cases i with
    | core =>
      have hc := coreNext_of_inputs_eq_core hi
      exact step_core_next hc (hwritten hc)
    | reset => exact ⟨resetBlock s.popInput, by rw [step, hi]⟩
    | host a =>
      have ha : a.wellFormed s.params = true := hadmitted (.host a) (by simp [hi])
      exact ⟨_, by rw [step_host hi, hostAccess_next_of_wellFormed (s := s.popInput) ha]⟩

/-- Settles O33: each clause is one equation of its command function, with the codes of 60 R190 and R191 as a word. -/
theorem commandsReportTheFirstError : Obligations.CommandsReportTheFirstError := by
  intro pad s S N Fails
  refine ⟨fun hop => exec_of_err (commandOutcome_illegal hop ..) rfl,
    exec_of_err b32decCommand_err_nullInput rfl,
    fun hsrc => exec_of_err (b32decCommand_err_src hsrc) rfl,
    fun hsrc text hread => ⟨fun hbad => exec_of_err (b32decCommand_err_format hsrc hread hbad) rfl,
      fun hgood hdst => exec_of_err (b32decCommand_err_dst hsrc hread hgood hdst) rfl⟩,
    exec_of_err b32encCommand_err_nullInput rfl,
    fun hoff => exec_of_err (b32encCommand_err_offset hoff) rfl,
    fun hoff hlen => exec_of_err (b32encCommand_err_length hoff hlen) rfl,
    fun hoff hlen hrange => exec_of_err (b32encCommand_err_range hoff hlen hrange) rfl,
    fun hoff hrange hlimit => exec_of_err (b32encCommand_err_lengthLimit hoff hrange hlimit) rfl,
    fun hoff hlen hrange hlimit => ?encWindows,
    exec_of_err hotpgenCommand_err_nullInput rfl,
    fun hcounter => exec_of_err (hotpgenCommand_err_counter hcounter) rfl,
    fun hcounter hkey => exec_of_err (hotpgenCommand_err_key hcounter hkey) rfl,
    fun hcounter hkey hdigits => exec_of_err (hotpgenCommand_err_digits hcounter hkey hdigits) rfl,
    fun hcounter hkey hd1 hd10 => ?hotpWindows,
    fun n hstep => exec_of_err (totpcntCommand_err_step hstep) rfl⟩
  case encWindows =>
    obtain ⟨hsrcErr, hdstErr⟩ := b32encCommand_err_windows (N := N) (m := s.buf) (p := pad) hoff hlen hrange hlimit
    refine ⟨fun hsrc => exec_of_err (hsrcErr hsrc) rfl, ?_⟩
    rintro hsrc _ rfl hdst
    exact exec_of_err (hdstErr hsrc hdst) rfl
  case hotpWindows =>
    obtain ⟨hsrcErr, hdstErr⟩ := hotpgenCommand_err_windows (N := N) (m := s.buf) hcounter hkey hd1 hd10
    exact ⟨fun hsrc => exec_of_err (hsrcErr hsrc) rfl, fun hsrc hdst => exec_of_err (hdstErr hsrc hdst) rfl⟩

/-- Settles O35: success leaves ERR at 0, and completeErr is the state the statement writes out. -/
theorem errorCompletionWritesOnlyStatus : Obligations.ErrorCompletionWritesOnlyStatus := by
  intro i s t h herr
  rw [exec_eq_complete] at h
  obtain ⟨w, -, rfl⟩ | ⟨code, param, ho, rfl⟩ := complete_eq_next.mp h
  · cases herr
  · obtain ⟨hne, hused⟩ := commandOutcome_err ho
    exact ⟨code, param, hne, hused, rfl⟩

/-- A completion of either kind sets DONE and leaves CTRL, so irq is then IRQ_EN (60 R200). -/
theorem irq_of_exec_next {i : Instr} {s t : State} (h : exec i s = .next t) : t.irq = s.csr.ctrl.irqEn := by
  rw [exec_eq_complete] at h
  obtain ⟨w, -, rfl⟩ | ⟨code, param, -, rfl⟩ := complete_eq_next.mp h <;> exact Bool.true_and _

/-- Settles O16, by what moves irq: completion, the Host's writes of STATUS, CMD and CTRL. -/
theorem irqFollowsDoneAndItsEnable : Obligations.IrqFollowsDoneAndItsEnable := by
  intro s
  refine ⟨Bool.and_eq_true_iff, fun i t => irq_of_exec_next, fun w hw => ?status, fun w hb => ?accept, fun w => ?ctrl⟩
  case status =>
    rw [show 0x008 = regOffset .status by rfl, windowWrite_reg]
    simp [csrWrite, State.irq, hw]
  case accept =>
    rw [show 0x00C = regOffset .cmd by rfl, windowWrite_reg, csrWrite_cmd_idle hb]
    rfl
  case ctrl =>
    rw [show 0x004 = regOffset .ctrl by rfl, windowWrite_reg]
    exact ⟨rfl, rfl⟩

/-- Settles O28: every opcode of the list has the outcome of an opcode with no command. -/
theorem illegalOpcodesComplete : Obligations.IllegalOpcodesComplete := by
  intro n p s i hi
  obtain rfl | hout := storesNothing_cases (List.mem_cons_of_mem _ hi) s.snap s.params.bufBytes s.buf
  · simp at hi
  · obtain ⟨t, hexec, hword, hframe⟩ := exec_of_err hout (word := 0x00000C56#32) rfl
    exact ⟨t, hexec, hframe, hword⟩

end Sys2Proof.Machine
end

section
/-! SUPPORT. Reset's step and the values it leaves, and what every completion keeps: the two flags it sets, and that it
neither reads nor changes CTRL (10 R22, R43; 70 R222, R232). -/

namespace Sys2Proof.Machine

/-! ### Reset -/

/-- The reset column of the register map (10 R22, 70 R222), BUF_SIZE as the parameters give it (10 R39). -/
def resetValue (p : Params) : Reg → Word
  | .id      => 0xB32C0001#32
  | .ctrl    => 0x00000001#32
  | .digits  => 6#32
  | .step    => 30#32
  | .bufSize => BitVec.ofNat 32 p.bufBytes
  | _        => 0#32

theorem csrRead_reset (p : Params) (r : Reg) : csrRead p Csr.reset r = resetValue p r := by cases r <;> rfl

/-- A reset that is the next input happens, whatever is in flight (70 R220). -/
theorem step_reset {s : State} {rest : List Input} (hi : s.inputs = .reset :: rest) :
    step s = .next (resetBlock s.popInput) := by rw [step, hi]

/-- Of the parameters the invariant after reset asks nothing. -/
theorem blockInv_reset (p : Params) : BlockInv { State.reset with params := p } :=
  (BlockInv.resetBlock { State.reset with params := p }).of_eq rfl rfl rfl rfl

/-! ### Completion -/

/-- A completion of either kind clears BUSY, sets DONE and takes no input off (10 R43). -/
theorem completed_of_exec_next {i : Instr} {s t : State} (h : exec i s = .next t) :
    t.csr.status.busy = false ∧ t.csr.status.done = true ∧ t.inputs = s.inputs := by
  rw [exec_eq_complete] at h
  obtain ⟨w, -, rfl⟩ | ⟨code, param, -, rfl⟩ := complete_eq_next.mp h
  · exact ⟨rfl, rfl, rfl⟩
  · exact ⟨rfl, rfl, rfl⟩

/-- A completion carries any CTRL through unchanged: no outcome reads or writes it (10 R43). -/
theorem complete_withCtrl {o : CmdOutcome} {s t : State} (h : complete o s = .next t) (c : Ctrl) :
    complete o { s with csr := { s.csr with ctrl := c } } = .next { t with csr := { t.csr with ctrl := c } } := by
  obtain ⟨w, rfl, rfl⟩ | ⟨code, param, rfl, rfl⟩ := complete_eq_next.mp h
  · exact complete_ok w _
  · exact complete_err code param _

/-- The input window and the bytes in it are those of the command in flight. -/
theorem SameCommand.inputWritten {s u : State} (h : SameCommand s u) (hs : InputWritten s) : InputWritten u := by
  unfold InputWritten Written at *
  rwa [h.buf, h.snap, h.params]

end Sys2Proof.Machine
end

section
/-! PROOFS. Reset and hazards (70 R220 to R222, R232, R235). -/

namespace Sys2Proof.Machine

/-- Settles O4: after reset the registers are Csr.reset and BUF is empty. -/
theorem resetPutsEveryRegisterAtItsResetValue : Obligations.ResetPutsEveryRegisterAtItsResetValue := by
  refine ⟨?fromAnyState, csrRead_reset State.reset.params, readByte?_nil, rfl, rfl⟩
  case fromAnyState =>
    intro s rest hi
    exact ⟨resetBlock s.popInput, step_reset hi, csrRead_reset s.params, readByte?_nil, rfl, rfl, rfl,
      congrArg List.tail hi, rfl⟩

/-- Settles O23: the accesses leave the same command in flight and its input written, so the Core's turn behind them
is its completion. -/
theorem everyCommandCompletes : Obligations.EveryCommandCompletes := by
  intro s hb hwritten hin
  obtain ⟨u, hsame, hnil, hrun⟩ := run_hosts_busy hb hin
  obtain ⟨v, hv⟩ := exec_next_of_inputWritten (hsame.inputWritten hwritten)
  have hstep : step u = .next v := by rw [step_nil hnil, coreTurn_busy hsame.busy, hv]
  obtain ⟨hbusy, hdone, hinputs⟩ := completed_of_exec_next hv
  exact ⟨v, hrun.trans hstep, hbusy, hdone, hinputs.trans hnil⟩

/-- Settles O25: acceptance copies ALIAS_EN into the snapshot, and a completion reads the snapshot, never CTRL. -/
theorem aliasEnableIsSampledAtAcceptance : Obligations.AliasEnableIsSampledAtAcceptance := by
  refine ⟨fun w s => rfl, fun i s t c h => ?_⟩
  rw [exec_eq_complete] at h ⊢
  exact complete_withCtrl h c

/-- Settles O27: State.reset is the reset state of its own parameters. -/
theorem resetMeetsTheInvariant : Obligations.ResetMeetsTheInvariant :=
  ⟨blockInv_reset State.reset.params, blockInv_reset⟩

end Sys2Proof.Machine
end
